-- ==== Sys2Proof/Word.lean ====
section
/-! DEFINITION. The words of the machine: byte, 16-bit word, the operand fields of an instruction word and the
register numbers (spec/00_scope.md R8, spec/30_encoding.md R72, R73). Every value is unsigned (R8). -/

namespace Sys2Proof

/-- A memory byte, a V register or a timer (spec/10_state.md R20, R26, R28). -/
abbrev Byte := BitVec 8

/-- A 16-bit word: I, PC, a stack slot or an instruction word (spec/10_state.md R22 to R24, spec/30_encoding.md R71). -/
abbrev Word := BitVec 16

/-- The field N of DXYN, a row count 0 to 15, and the other 4-bit digits of a word (spec/30_encoding.md R72). -/
abbrev Nibble := BitVec 4

/-- The field NNN: a 12-bit immediate (spec/30_encoding.md R73). -/
abbrev Imm12 := BitVec 12

/-- The number of a general register, V0 to VF (spec/10_state.md R20). -/
abbrev RegId := Fin 16

/-- VF: a general register and the one flag (spec/10_state.md R21). -/
abbrev RegId.vf : RegId := 15

end Sys2Proof
end

