-- ==== Sys2Proof/Syntax.lean ====
section
/-! DEFINITION. The instructions: one constructor per row of spec/opcode_table.json, in the table's order
(spec/30_encoding.md R75). The operand fields have the types of R73: a register number X or Y, an 8-bit immediate NN,
a 12-bit immediate NNN, a row count N. -/

namespace Sys2Proof

/-- The 34 instructions of spec/30_encoding.md R75. -/
inductive Instr where
  /-- 00E0 `CLS` (R141). -/
  | cls
  /-- 00EE `RET` (R101). -/
  | ret
  /-- 1NNN `JP NNN` (R102). -/
  | jp (nnn : Imm12)
  /-- 2NNN `CALL NNN` (R103). -/
  | call (nnn : Imm12)
  /-- 3XNN `SE Vx, NN` (R104). -/
  | seImm (x : RegId) (nn : Byte)
  /-- 4XNN `SNE Vx, NN` (R105). -/
  | sneImm (x : RegId) (nn : Byte)
  /-- 5XY0 `SE Vx, Vy` (R106). -/
  | seReg (x y : RegId)
  /-- 6XNN `LD Vx, NN` (R111). -/
  | ldImm (x : RegId) (nn : Byte)
  /-- 7XNN `ADD Vx, NN` (R112). -/
  | addImm (x : RegId) (nn : Byte)
  /-- 8XY0 `LD Vx, Vy` (R113). -/
  | ldReg (x y : RegId)
  /-- 8XY1 `OR Vx, Vy` (R114). -/
  | orReg (x y : RegId)
  /-- 8XY2 `AND Vx, Vy` (R115). -/
  | andReg (x y : RegId)
  /-- 8XY3 `XOR Vx, Vy` (R116). -/
  | xorReg (x y : RegId)
  /-- 8XY4 `ADD Vx, Vy` (R117). -/
  | addReg (x y : RegId)
  /-- 8XY5 `SUB Vx, Vy` (R118). -/
  | subReg (x y : RegId)
  /-- 8XY6 `SHR Vx` (R119). The field Y is present in the word and has no effect (R73). -/
  | shr (x y : RegId)
  /-- 8XY7 `SUBN Vx, Vy` (R120). -/
  | subnReg (x y : RegId)
  /-- 8XYE `SHL Vx` (R121). The field Y is present in the word and has no effect (R73). -/
  | shl (x y : RegId)
  /-- 9XY0 `SNE Vx, Vy` (R107). -/
  | sneReg (x y : RegId)
  /-- ANNN `LD I, NNN` (R131). -/
  | ldI (nnn : Imm12)
  /-- BNNN `JP V0, NNN` (R108). -/
  | jpV0 (nnn : Imm12)
  /-- CXNN `RND Vx, NN` (R122). -/
  | rnd (x : RegId) (nn : Byte)
  /-- DXYN `DRW Vx, Vy, N` (R142). -/
  | drw (x y : RegId) (n : Nibble)
  /-- EX9E `SKP Vx` (R151). -/
  | skp (x : RegId)
  /-- EXA1 `SKNP Vx` (R152). -/
  | sknp (x : RegId)
  /-- FX07 `LD Vx, DT` (R154). -/
  | ldVxDT (x : RegId)
  /-- FX0A `LD Vx, K` (R153). -/
  | ldVxK (x : RegId)
  /-- FX15 `LD DT, Vx` (R155). -/
  | ldDTVx (x : RegId)
  /-- FX18 `LD ST, Vx` (R156). -/
  | ldSTVx (x : RegId)
  /-- FX1E `ADD I, Vx` (R132). -/
  | addI (x : RegId)
  /-- FX29 `LD F, Vx` (R133). -/
  | ldF (x : RegId)
  /-- FX33 `LD B, Vx` (R134). -/
  | ldB (x : RegId)
  /-- FX55 `LD [I], Vx` (R135). -/
  | stRegs (x : RegId)
  /-- FX65 `LD Vx, [I]` (R136). -/
  | ldRegs (x : RegId)
deriving DecidableEq, Repr

end Sys2Proof
end

