-- ==== Sys2Proof/WellFormed.lean ====
section
/-! DEFINITION. Which words are instructions, written from the opcode map of spec/30_encoding.md R75 (masks and
matches) and independently of the decoder: a word is well formed when it matches a row of the map (R74), and the
words that match none are the reserved encodings of R76.

A term of `Instr` needs no check of its own: its operand types admit exactly the values R73 gives each field. -/

namespace Sys2Proof

/-- One row of the opcode map: the word is the instruction exactly when `op &&& mask = value`
(spec/30_encoding.md R75). -/
structure OpcodeRow where
  mask : Word
  value : Word
deriving DecidableEq, Repr

/-- Rows 1 to 10 of the map. -/
def opcodeRowsA : List OpcodeRow :=
  [⟨0xFFFF, 0x00E0⟩, ⟨0xFFFF, 0x00EE⟩, ⟨0xF000, 0x1000⟩, ⟨0xF000, 0x2000⟩, ⟨0xF000, 0x3000⟩,
   ⟨0xF000, 0x4000⟩, ⟨0xF00F, 0x5000⟩, ⟨0xF000, 0x6000⟩, ⟨0xF000, 0x7000⟩, ⟨0xF00F, 0x8000⟩]

/-- Rows 11 to 20 of the map. -/
def opcodeRowsB : List OpcodeRow :=
  [⟨0xF00F, 0x8001⟩, ⟨0xF00F, 0x8002⟩, ⟨0xF00F, 0x8003⟩, ⟨0xF00F, 0x8004⟩, ⟨0xF00F, 0x8005⟩,
   ⟨0xF00F, 0x8006⟩, ⟨0xF00F, 0x8007⟩, ⟨0xF00F, 0x800E⟩, ⟨0xF00F, 0x9000⟩, ⟨0xF000, 0xA000⟩]

/-- Rows 21 to 34 of the map. -/
def opcodeRowsC : List OpcodeRow :=
  [⟨0xF000, 0xB000⟩, ⟨0xF000, 0xC000⟩, ⟨0xF000, 0xD000⟩, ⟨0xF0FF, 0xE09E⟩, ⟨0xF0FF, 0xE0A1⟩,
   ⟨0xF0FF, 0xF007⟩, ⟨0xF0FF, 0xF00A⟩, ⟨0xF0FF, 0xF015⟩, ⟨0xF0FF, 0xF018⟩, ⟨0xF0FF, 0xF01E⟩,
   ⟨0xF0FF, 0xF029⟩, ⟨0xF0FF, 0xF033⟩, ⟨0xF0FF, 0xF055⟩, ⟨0xF0FF, 0xF065⟩]

/-- The opcode map, 34 rows in the order of the source's table (spec/30_encoding.md R75). -/
def opcodeMap : List OpcodeRow := opcodeRowsA ++ opcodeRowsB ++ opcodeRowsC

/-- The row's literal digits all equal the word's (spec/30_encoding.md R74, D9). -/
def OpcodeRow.fits (r : OpcodeRow) (op : Word) : Bool := op &&& r.mask == r.value

/-- The word is one of the 34 instructions (spec/30_encoding.md R74); otherwise it is reserved (R76). -/
def wellFormedWord (op : Word) : Bool := opcodeMap.any fun r => r.fits op

end Sys2Proof
end

