-- ==== Sys2Proof/Decode.lean ====
section
/-! DEFINITION. Decoding (spec/30_encoding.md R71 to R74) and, after it, the encoder written from the same map
(R75). Decoding is total: a word is one of the 34 instructions or rejected by name as unrecognized (R74, R76). -/

namespace Sys2Proof

/-- Why bytes are no instruction. -/
inductive DecodeError where
  /-- The word matches no row of the opcode map: a reserved encoding (spec/30_encoding.md R76). -/
  | unrecognized (op : Word)
  /-- Fewer than the two bytes of an instruction were given (spec/30_encoding.md R71). -/
  | truncated (available : Nat)
deriving DecidableEq, Repr

/-- The major opcode group G = op[15:12] (spec/30_encoding.md R72). -/
def fieldG (op : Word) : Nibble := op.extractLsb' 12 4

/-- X = op[11:8], a register number (spec/30_encoding.md R73). -/
def fieldX (op : Word) : RegId := (op.extractLsb' 8 4).toFin

/-- Y = op[7:4], a register number (spec/30_encoding.md R73). -/
def fieldY (op : Word) : RegId := (op.extractLsb' 4 4).toFin

/-- N = op[3:0] (spec/30_encoding.md R73). -/
def fieldN (op : Word) : Nibble := op.extractLsb' 0 4

/-- NN = op[7:0] (spec/30_encoding.md R73). -/
def fieldNN (op : Word) : Byte := op.extractLsb' 0 8

/-- NNN = op[11:0] (spec/30_encoding.md R73). -/
def fieldNNN (op : Word) : Imm12 := op.extractLsb' 0 12

/-- Group 0: only the two words 00E0 and 00EE (spec/30_encoding.md R74, D9). -/
def decodeGroup0 (op : Word) : Except DecodeError Instr :=
  if op = 0x00E0 then .ok .cls
  else if op = 0x00EE then .ok .ret
  else .error (.unrecognized op)

/-- Groups 5 and 9: the last digit must be 0 (spec/30_encoding.md R74, D9). -/
def decodeLastDigitZero (op : Word) (i : Instr) : Except DecodeError Instr :=
  if fieldN op = 0 then .ok i else .error (.unrecognized op)

/-- Group 8 dispatches on op[3:0] (spec/30_encoding.md R74). -/
def decodeGroup8 (op : Word) : Except DecodeError Instr :=
  match (fieldN op).toNat with
  | 0x0 => .ok (.ldReg (fieldX op) (fieldY op))
  | 0x1 => .ok (.orReg (fieldX op) (fieldY op))
  | 0x2 => .ok (.andReg (fieldX op) (fieldY op))
  | 0x3 => .ok (.xorReg (fieldX op) (fieldY op))
  | 0x4 => .ok (.addReg (fieldX op) (fieldY op))
  | 0x5 => .ok (.subReg (fieldX op) (fieldY op))
  | 0x6 => .ok (.shr (fieldX op) (fieldY op))
  | 0x7 => .ok (.subnReg (fieldX op) (fieldY op))
  | 0xE => .ok (.shl (fieldX op) (fieldY op))
  | _ => .error (.unrecognized op)

/-- Group E dispatches on op[7:0] (spec/30_encoding.md R74). -/
def decodeGroupE (op : Word) : Except DecodeError Instr :=
  if fieldNN op = 0x9E then .ok (.skp (fieldX op))
  else if fieldNN op = 0xA1 then .ok (.sknp (fieldX op))
  else .error (.unrecognized op)

/-- Group F dispatches on op[7:0] (spec/30_encoding.md R74). -/
def decodeGroupF (op : Word) : Except DecodeError Instr :=
  if fieldNN op = 0x07 then .ok (.ldVxDT (fieldX op))
  else if fieldNN op = 0x0A then .ok (.ldVxK (fieldX op))
  else if fieldNN op = 0x15 then .ok (.ldDTVx (fieldX op))
  else if fieldNN op = 0x18 then .ok (.ldSTVx (fieldX op))
  else if fieldNN op = 0x1E then .ok (.addI (fieldX op))
  else if fieldNN op = 0x29 then .ok (.ldF (fieldX op))
  else if fieldNN op = 0x33 then .ok (.ldB (fieldX op))
  else if fieldNN op = 0x55 then .ok (.stRegs (fieldX op))
  else if fieldNN op = 0x65 then .ok (.ldRegs (fieldX op))
  else .error (.unrecognized op)

/-- `decode(op)`, total on all 65536 words (spec/30_encoding.md R74). The last arm is group F. -/
def decode (op : Word) : Except DecodeError Instr :=
  match (fieldG op).toNat with
  | 0x0 => decodeGroup0 op
  | 0x1 => .ok (.jp (fieldNNN op))
  | 0x2 => .ok (.call (fieldNNN op))
  | 0x3 => .ok (.seImm (fieldX op) (fieldNN op))
  | 0x4 => .ok (.sneImm (fieldX op) (fieldNN op))
  | 0x5 => decodeLastDigitZero op (.seReg (fieldX op) (fieldY op))
  | 0x6 => .ok (.ldImm (fieldX op) (fieldNN op))
  | 0x7 => .ok (.addImm (fieldX op) (fieldNN op))
  | 0x8 => decodeGroup8 op
  | 0x9 => decodeLastDigitZero op (.sneReg (fieldX op) (fieldY op))
  | 0xA => .ok (.ldI (fieldNNN op))
  | 0xB => .ok (.jpV0 (fieldNNN op))
  | 0xC => .ok (.rnd (fieldX op) (fieldNN op))
  | 0xD => .ok (.drw (fieldX op) (fieldY op) (fieldN op))
  | 0xE => decodeGroupE op
  | _ => decodeGroupF op

/-- The word of two bytes in memory order: the byte at the lower address is bits 15 to 8
(spec/20_memory.md R55, R56). -/
def wordOfBytes (hi lo : Byte) : Word := hi ++ lo

/-- Decode the instruction at the head of a sequence of bytes and give the bytes after it; an instruction is two
bytes, no more and no fewer (spec/30_encoding.md R71). -/
def decodeBytes : List Byte → Except DecodeError (Instr × List Byte)
  | hi :: lo :: rest =>
    match decode (wordOfBytes hi lo) with
    | .ok i => .ok (i, rest)
    | .error e => .error e
  | short => .error (.truncated short.length)

/-- The high byte of a word, stored at the lower address (spec/20_memory.md R56). -/
def highByte (op : Word) : Byte := op.extractLsb' 8 8

/-- The low byte of a word, stored at the higher address (spec/20_memory.md R56). -/
def lowByte (op : Word) : Byte := op.extractLsb' 0 8

/-! The encoder, from the formats of spec/30_encoding.md R72 and the map of R75. -/

/-- Format `NNN`: G, then twelve bits (spec/30_encoding.md R72). -/
def wordNNN (g : Nibble) (nnn : Imm12) : Word := g ++ nnn

/-- Formats `XNN` and `Xnn`: G, X, then eight bits, an immediate or a literal (spec/30_encoding.md R72). -/
def wordXNN (g : Nibble) (x : RegId) (nn : Byte) : Word := g ++ (BitVec.ofFin x : Nibble) ++ nn

/-- Formats `XYn` and `XYN`: G, X, Y, then four bits, a literal or the row count (spec/30_encoding.md R72). -/
def wordXYN (g : Nibble) (x y : RegId) (n : Nibble) : Word :=
  g ++ (BitVec.ofFin x : Nibble) ++ (BitVec.ofFin y : Nibble) ++ n

/-- The word of an instruction (spec/30_encoding.md R75, R79). -/
def encode : Instr → Word
  | .cls => 0x00E0
  | .ret => 0x00EE
  | .jp nnn => wordNNN 0x1 nnn
  | .call nnn => wordNNN 0x2 nnn
  | .seImm x nn => wordXNN 0x3 x nn
  | .sneImm x nn => wordXNN 0x4 x nn
  | .seReg x y => wordXYN 0x5 x y 0x0
  | .ldImm x nn => wordXNN 0x6 x nn
  | .addImm x nn => wordXNN 0x7 x nn
  | .ldReg x y => wordXYN 0x8 x y 0x0
  | .orReg x y => wordXYN 0x8 x y 0x1
  | .andReg x y => wordXYN 0x8 x y 0x2
  | .xorReg x y => wordXYN 0x8 x y 0x3
  | .addReg x y => wordXYN 0x8 x y 0x4
  | .subReg x y => wordXYN 0x8 x y 0x5
  | .shr x y => wordXYN 0x8 x y 0x6
  | .subnReg x y => wordXYN 0x8 x y 0x7
  | .shl x y => wordXYN 0x8 x y 0xE
  | .sneReg x y => wordXYN 0x9 x y 0x0
  | .ldI nnn => wordNNN 0xA nnn
  | .jpV0 nnn => wordNNN 0xB nnn
  | .rnd x nn => wordXNN 0xC x nn
  | .drw x y n => wordXYN 0xD x y n
  | .skp x => wordXNN 0xE x 0x9E
  | .sknp x => wordXNN 0xE x 0xA1
  | .ldVxDT x => wordXNN 0xF x 0x07
  | .ldVxK x => wordXNN 0xF x 0x0A
  | .ldDTVx x => wordXNN 0xF x 0x15
  | .ldSTVx x => wordXNN 0xF x 0x18
  | .addI x => wordXNN 0xF x 0x1E
  | .ldF x => wordXNN 0xF x 0x29
  | .ldB x => wordXNN 0xF x 0x33
  | .stRegs x => wordXNN 0xF x 0x55
  | .ldRegs x => wordXNN 0xF x 0x65

/-- The two bytes of an instruction in memory order (spec/20_memory.md R56). -/
def encodeBytes (i : Instr) : List Byte := [highByte (encode i), lowByte (encode i)]

/-- What the decoder reads from an instruction of `nbits` bits numbered as spec/opcode_table.json numbers them: one
16-bit word, bit 0 its least significant bit, laid out high byte first (spec/20_memory.md R56). Bits above `nbits`
are 0 (log entry 14, DESIGN CHOICE, safe). -/
def decodeTableWord (nbits w : Nat) : Option Instr :=
  let op : Word := BitVec.ofNat 16 (w % 2 ^ nbits)
  match decodeBytes [highByte op, lowByte op] with
  | .ok (i, _) => some i
  | .error _ => none

end Sys2Proof
end

