-- ==== Sys2Proof/Config.lean ====
section
/-! DEFINITION. What is fixed for this machine (spec/00_scope.md R6) and its one free value, the random byte of
CXNN (spec/10_state.md R33). The parameter FONTSET of R7 stands in Machine/Fontset.lean. -/

namespace Sys2Proof

/-- `MEM_SIZE`: the bytes of `memory`, addresses 0x000 to 0xFFF (spec/00_scope.md R6). -/
@[simp] abbrev Config.memSize : Nat := 4096

/-- `PROG_BASE`: where a program is loaded and PC starts (spec/00_scope.md R6). -/
@[simp] abbrev Config.progBase : Nat := 0x200

/-- `PROG_MAX`: the longest image that loads (spec/00_scope.md R6). -/
@[simp] abbrev Config.progMax : Nat := 3584

/-- FREE VALUE (log entry 2, DESIGN CHOICE, safe): `draw8()`, the byte the n-th executed CXNN draws, n counted from 0. It has no body:
nothing is known of any draw, and nothing relates two draws (spec/10_state.md R33, spec/41_alu.md R122, D11). -/
opaque Config.draw8 : Nat → Byte

end Sys2Proof
end

