-- ==== Sys2Proof/Machine/Fontset.lean ====
section
/-! DEFINITION. The parameter FONTSET and what memory holds after reset (spec/20_memory.md R51, R52,
spec/10_state.md R38). -/

namespace Sys2Proof.Machine

/-- Glyphs 0 to 7 of the customary font (spec/20_memory.md R52). -/
def fontsetLow : List Byte :=
  [0xF0, 0x90, 0x90, 0x90, 0xF0] ++ [0x20, 0x60, 0x20, 0x20, 0x70] ++
  [0xF0, 0x10, 0xF0, 0x80, 0xF0] ++ [0xF0, 0x10, 0xF0, 0x10, 0xF0] ++
  [0x90, 0x90, 0xF0, 0x10, 0x10] ++ [0xF0, 0x80, 0xF0, 0x10, 0xF0] ++
  [0xF0, 0x80, 0xF0, 0x90, 0xF0] ++ [0xF0, 0x10, 0x20, 0x40, 0x40]

/-- Glyphs 8 to F of the customary font (spec/20_memory.md R52). -/
def fontsetHigh : List Byte :=
  [0xF0, 0x90, 0xF0, 0x90, 0xF0] ++ [0xF0, 0x90, 0xF0, 0x10, 0xF0] ++
  [0xF0, 0x90, 0xF0, 0x90, 0x90] ++ [0xE0, 0x90, 0xE0, 0x90, 0xE0] ++
  [0xF0, 0x80, 0x80, 0x80, 0xF0] ++ [0xE0, 0x90, 0x90, 0x90, 0xE0] ++
  [0xF0, 0x80, 0xF0, 0x80, 0xF0] ++ [0xF0, 0x80, 0xF0, 0x80, 0x80]

/-- PRESUMED, unsafe (log entry 1): the 80 bytes of FONTSET. The spec leaves them a parameter (D12) and permits this
customary table as its value (spec/20_memory.md R52, from general knowledge). -/
def fontset : List Byte := fontsetLow ++ fontsetHigh

/-- What the byte at address `a` holds after `initialize()`, so what an address no store has changed reads as:
FONTSET below 0x050 and 0 above (spec/10_state.md R38, spec/20_memory.md R51). -/
def resetByte (a : Nat) : Byte := fontset.getD a 0

end Sys2Proof.Machine
end

