-- ==== Sys2Proof/Machine/State.lean ====
section
/-! DEFINITION. The state of the machine, all of spec/10_state.md, as plain data; the reasons a step can stop; and
the state after reset (spec/10_state.md R38, spec/70_reset_and_hazards.md R190). -/

namespace Sys2Proof.Machine

/-- The six fatal causes the fault latch records (spec/60_exceptions.md R161). They are state of the machine, not
stops of the model: raising one gives a next state (R162). -/
inductive MachineFault where
  /-- 2NNN with SP = 16 (R164). -/
  | stackOverflow
  /-- 00EE with SP = 0 (R165). -/
  | stackUnderflow
  /-- Fetch with PC above 0xFFE (R166). -/
  | fetchOutOfRange
  /-- DXYN, FX33, FX55 or FX65 through addresses above 0xFFF (R167). -/
  | memoryOutOfRange
  /-- DXYN whose rectangle is not wholly inside the grid (R168). -/
  | drawOutOfBounds
  /-- EX9E or EXA1 with V[X] above 15 (R169). -/
  | keyIndexOutOfRange
deriving DecidableEq, Repr

/-- The events a step sends to the host (spec/10_state.md R34). -/
inductive Event where
  /-- `Beep` (spec/60_exceptions.md R177). -/
  | beep
  /-- `UnknownOpcode(op)` with the raw word (spec/60_exceptions.md R170). -/
  | unknownOpcode (op : Word)
deriving DecidableEq, Repr

/-- How the model itself stops. The architectural faults of R161 are not here: their entry is a next state. -/
inductive Fault where
  /-- Raised by CALL and RET in a state with SP above 16, which the spec calls unreachable (D16, U14): the stack has
  no slot to push to or pop from, and no rule gives an effect. Safe: the model stops (log entry 6, DESIGN CHOICE, safe). -/
  | stackSlotMissing
deriving DecidableEq, Repr

/-- Why an instruction has no meaning in the model. -/
inductive Refusal where
  /-- Raised by an arm of `exec` for an instruction not modelled yet; no arm raises it now. Safe: the model stops. -/
  | notModelled (mnemonic : String)
deriving DecidableEq, Repr

/-- Memory as the bytes that differ from their reset contents: addresses strictly rising (Memory.wf in Ops.lean). -/
abbrev Memory := List Host.Cell

/-- The framebuffer, 32 rows of 64 one-bit cells: pixel (x, y) is bit x of row y (spec/10_state.md R29, D18). -/
abbrev Frame := Vector (BitVec 64) 32

/-- The Machine State (spec/10_state.md), the keypad port, the output trace, and the counter of random draws. -/
structure State where
  /-- V0 to VF (R20, R21). -/
  v : Vector Byte 16
  /-- I, the index register (R22). -/
  index : Word
  /-- PC (R23). -/
  pc : Word
  /-- The 16 return-address slots (R24). -/
  stack : Vector Word 16
  /-- SP, the next free slot, 0 to 16 in 5 bits (R25, D16). -/
  sp : BitVec 5
  /-- `delay_timer` (R26). -/
  delayTimer : Byte
  /-- `sound_timer` (R27). -/
  soundTimer : Byte
  /-- `memory` (R28). -/
  mem : Memory
  /-- `framebuffer` (R29). -/
  framebuffer : Frame
  /-- `drawFlag` (R30). -/
  drawFlag : Bool
  /-- The fault latch (R32). -/
  fault : Option MachineFault
  /-- The keypad input port: the value the host last set, bit k = key k, 1 = pressed (R31, D26; log entry 4, DESIGN CHOICE, safe). -/
  keypad : BitVec 16
  /-- The output trace: every event sent so far, oldest first (R34, D32; log entry 3, DESIGN CHOICE, safe). -/
  trace : List Event
  /-- The model's own: how many bytes CXNN has drawn so far; it selects the next free value (R33; log entry 2, DESIGN CHOICE, safe). -/
  drawIndex : Nat
deriving DecidableEq, Repr

/-- The answer of a step or of an instruction. -/
abbrev Out := Host.Outcome State Fault Refusal

/-- The state after `initialize()` (spec/10_state.md R38): everything 0 but PC = 0x200 and drawFlag = 1, memory at its
reset contents, no key pressed (D26), no event sent. -/
def State.reset : State where
  v := Vector.replicate 16 0
  index := 0
  pc := 0x200
  stack := Vector.replicate 16 0
  sp := 0
  delayTimer := 0
  soundTimer := 0
  mem := []
  framebuffer := Vector.replicate 32 0
  drawFlag := true
  fault := none
  keypad := 0
  trace := []
  drawIndex := 0

end Sys2Proof.Machine
end

