-- ==== Sys2Proof/Machine/Ops.lean ====
section
/-! DEFINITION. The named operations over memory, registers, stack, framebuffer and events; raising a machine fault
(spec/60_exceptions.md R162) and, beside it, the one way out of it, `initialize()` (R174). -/

namespace Sys2Proof.Machine

/-! Memory (spec/20_memory.md). -/

/-- The byte at an address: the listed one, else its reset contents (spec/20_memory.md R54, R60). -/
def Memory.read : Memory → Nat → Byte
  | [], a => resetByte a
  | (k, b) :: m, a => if k = a then b else Memory.read m a

/-- Memory with nothing listed at an address. -/
def Memory.erase (m : Memory) (a : Nat) : Memory := m.filter fun c => c.1 ≠ a

/-- Memory with a byte listed in its place in the rising order. -/
def Memory.insert : Memory → Nat → Byte → Memory
  | [], a, b => [(a, b)]
  | (k, c) :: m, a, b => if a < k then (a, b) :: (k, c) :: m else (k, c) :: Memory.insert m a b

/-- `memory[a] <- b` (spec/20_memory.md R54), kept canonical: a byte equal to its reset contents is not listed. -/
def Memory.write (m : Memory) (a : Nat) (b : Byte) : Memory :=
  if b = resetByte a then m.erase a else (m.erase a).insert a b

/-- Addresses rise strictly from `lo`, lie inside memory, and no listed byte equals its reset contents. -/
def Memory.wfFrom : Nat → Memory → Bool
  | _, [] => true
  | lo, (k, b) :: m => decide (lo ≤ k ∧ k < Config.memSize ∧ b ≠ resetByte k) && Memory.wfFrom (k + 1) m

/-- The canonical form: equal memories are equal lists. -/
def Memory.wf (m : Memory) : Bool := Memory.wfFrom 0 m

/-- `MemRead(a, 1)` of an address in range (spec/00_scope.md R9, spec/20_memory.md R54). -/
def State.readByte (s : State) (a : Nat) : Byte := s.mem.read a

/-- `MemWrite(a, 1, b)` of an address in range (spec/00_scope.md R9, spec/20_memory.md R54). -/
def State.writeByte (s : State) (a : Nat) (b : Byte) : State := { s with mem := s.mem.write a b }

/-- The `n` bytes from address `a` up (spec/20_memory.md R58). -/
def State.readBytes (s : State) (a n : Nat) : List Byte := (List.range n).map fun k => s.readByte (a + k)

/-- Store bytes at `a`, `a + 1`, ... in that order (spec/20_memory.md R58, R60). -/
def State.writeBytes : State → Nat → List Byte → State
  | s, _, [] => s
  | s, a, b :: bs => State.writeBytes (s.writeByte a b) (a + 1) bs

/-- The `n` bytes from I up all lie in memory: the range check an instruction makes before its first write. The
address is the mathematical sum, never reduced (spec/20_memory.md R54, spec/42_index_memory.md R130, D5). -/
def State.rangeInMemory (s : State) (n : Nat) : Bool :=
  decide (n = 0 ∨ s.index.toNat + n ≤ Config.memSize)

/-! Registers (spec/10_state.md R20 to R25). -/

/-- `V[x]` (spec/00_scope.md R9). -/
def State.getV (s : State) (x : RegId) : Byte := s.v[x]

/-- `V[x] <- b` (spec/00_scope.md R9). -/
def State.setV (s : State) (x : RegId) (b : Byte) : State := { s with v := s.v.set x b }

/-- `I <- w`. -/
def State.setIndex (s : State) (w : Word) : State := { s with index := w }

/-- `PC <- w`: a direct assignment (spec/30_encoding.md R77). -/
def State.jumpTo (s : State) (w : Word) : State := { s with pc := w }

/-- `PC <- PC + 2`, the default (spec/30_encoding.md R77). -/
def State.advance (s : State) : State := { s with pc := s.pc + 2 }

/-- `PC <- PC + 4` if the condition holds, else `PC <- PC + 2` (spec/40_control_flow.md R100). -/
def State.skipIf (s : State) (c : Bool) : State := { s with pc := s.pc + if c then 4 else 2 }

/-- `stack[SP] <- w; SP <- SP + 1`, where the slot exists (spec/40_control_flow.md R103). -/
def State.push (s : State) (w : Word) : Option State :=
  if h : s.sp.toNat < 16 then some { s with stack := s.stack.set s.sp.toNat w, sp := s.sp + 1 } else none

/-- `SP <- SP - 1`, then the word in `stack[SP]`, where the slot exists; the slot keeps its value
(spec/40_control_flow.md R101, spec/10_state.md R24). -/
def State.pop (s : State) : Option (Word × State) :=
  if h : (s.sp - 1).toNat < 16 then some (s.stack[(s.sp - 1).toNat], { s with sp := s.sp - 1 }) else none

/-- `DT <- b` (spec/10_state.md R26). -/
def State.setDelay (s : State) (b : Byte) : State := { s with delayTimer := b }

/-- `ST <- b` (spec/10_state.md R27). -/
def State.setSound (s : State) (b : Byte) : State := { s with soundTimer := b }

/-- V[0..X] loaded from memory[a..a+X], the registers above VX unchanged (spec/42_index_memory.md R136). -/
def State.loadRegs (s : State) (a : Nat) (x : RegId) : State :=
  { s with v := Vector.ofFn fun k : RegId => if k ≤ x then s.readByte (a + k) else s.getV k }

/-- V[0..X] as bytes in memory order (spec/42_index_memory.md R135). -/
def State.regsUpTo (s : State) (x : RegId) : List Byte := s.v.toList.take (x + 1)

/-! The framebuffer (spec/10_state.md R29, R30, spec/20_memory.md R59). -/

/-- Pixel (x, y) of the grid; false outside it. -/
def Frame.pixel (f : Frame) (x y : Nat) : Bool := if h : y < 32 then f[y].getLsbD x else false

/-- `fb[k]` with k = y*64 + x (spec/20_memory.md R59). -/
def Frame.cell (f : Frame) (k : Nat) : Bool := f.pixel (k % 64) (k / 64)

/-- Flip pixel (x, y) of the grid (spec/43_display.md R140). -/
def Frame.flip (f : Frame) (x y : Nat) : Frame :=
  if h : y < 32 then f.set y (f[y] ^^^ BitVec.twoPow 64 x) else f

/-- Every cell 0 (spec/43_display.md R141). -/
def Frame.blank : Frame := Vector.replicate 32 0

/-- Write the framebuffer and set `drawFlag`, as the two display instructions do unconditionally
(spec/10_state.md R30, C8). -/
def State.setFrame (s : State) (f : Frame) : State := { s with framebuffer := f, drawFlag := true }

/-! Events and the random input (spec/10_state.md R33, R34). -/

/-- Send an event: it joins the end of the output trace (spec/10_state.md R34). -/
def State.emit (s : State) (e : Event) : State := { s with trace := s.trace ++ [e] }

/-- The byte the next `draw8()` gives: a free value (spec/10_state.md R33, log entry 2, DESIGN CHOICE, safe). -/
def State.nextDraw (s : State) : Byte := Config.draw8 s.drawIndex

/-- Count one draw, so that the next one is a fresh free value (log entry 2, DESIGN CHOICE, safe). -/
def State.countDraw (s : State) : State := { s with drawIndex := s.drawIndex + 1 }

/-! Faults (spec/60_exceptions.md R160 to R174). -/

/-- `raise MachineFault(c)`: only the latch is written; nothing else of the state changes, PC included, so the fault
is precise (spec/60_exceptions.md R162). There is no vector, no saved state and no mode change. -/
def State.raise (s : State) (c : MachineFault) : State := { s with fault := some c }

/-- `initialize()`, the only exit from the halted state: every element of state to its reset value. The keypad input
is not touched, no event is sent, and no draw is taken back (spec/70_reset_and_hazards.md R190,
spec/60_exceptions.md R174; log entry 17, DESIGN CHOICE, safe). -/
def State.restart (s : State) : State :=
  { State.reset with keypad := s.keypad, trace := s.trace, drawIndex := s.drawIndex }

/-- The numeric cause codes (spec/60_exceptions.md R161, D17). -/
def faultCode : Option MachineFault → Nat
  | none => 0
  | some .stackOverflow => 1
  | some .stackUnderflow => 2
  | some .fetchOutOfRange => 3
  | some .memoryOutOfRange => 4
  | some .drawOutOfBounds => 5
  | some .keyIndexOutOfRange => 6

end Sys2Proof.Machine
end

