-- ==== Sys2Proof/Machine/Cycle.lean ====
section
/-! DEFINITION. The phases of a step around the instruction's own effect: fetch, the unrecognised opcode, and the timer
phase (spec/30_encoding.md R70, spec/20_memory.md R55, spec/60_exceptions.md R170, R176). -/

namespace Sys2Proof.Machine

/-- Both bytes of the instruction lie in memory: PC ≤ 0xFFE (spec/20_memory.md R55, D6). -/
def State.fetchable (s : State) : Bool := decide (s.pc.toNat ≤ 0xFFE)

/-- The instruction word at PC, big-endian, at any PC, odd or even (spec/20_memory.md R55, R57). -/
def State.fetchWord (s : State) : Word := wordOfBytes (s.readByte s.pc.toNat) (s.readByte (s.pc.toNat + 1))

/-- A timer's decrement: by 1 if above 0 (spec/60_exceptions.md R176). -/
def tick (b : Byte) : Byte := if b = 0 then 0 else b - 1

/-- The timer phase: both timers tick, and Beep is sent if ST was 1 just before (spec/60_exceptions.md R176, R177). -/
def State.timerPhase (s : State) : State :=
  { s with
    delayTimer := tick s.delayTimer
    trace := if s.soundTimer = 1 then s.trace ++ [.beep] else s.trace
    soundTimer := tick s.soundTimer }

/-- A reserved word: the diagnostic with the raw word, then PC + 2; not a fault (spec/60_exceptions.md R170, D8). -/
def State.reportUnknown (s : State) (op : Word) : State := (s.emit (.unknownOpcode op)).advance

/-- FX0A with no key pressed, the one instruction that ends its step without a timer phase and without a fault
(spec/30_encoding.md R70, R77, spec/44_keypad_timers.md R153). -/
def awaitsKey : Instr → State → Bool
  | .ldVxK _, s => s.keypad == 0
  | _, _ => false

/-- The end of a step whose instruction took `s` to `t`: the timer phase, skipped if the instruction raised a fault or
is a waiting FX0A (spec/30_encoding.md R70, D10, D22; log entry 7, UNVERIFIED, unsafe). -/
def afterExec (i : Instr) (s t : State) : State :=
  if t.fault.isSome || awaitsKey i s then t else t.timerPhase

/-- An instruction word stored at PC, high byte first, where the step fetches it (spec/20_memory.md R56). A PC from
which nothing is fetched leaves the state as it is. -/
def State.placeWord (s : State) (op : Word) : State :=
  if s.fetchable then (s.writeByte s.pc.toNat (highByte op)).writeByte (s.pc.toNat + 1) (lowByte op) else s

end Sys2Proof.Machine
end

