-- ==== Sys2Proof/Machine/Operands.lean ====
section
/-! DEFINITION. The operand forms: immediates, jump targets, key numbers, decimal digits, glyph addresses and sprite
positions (spec/30_encoding.md R73, spec/42_index_memory.md R130, spec/43_display.md R140). -/

namespace Sys2Proof.Machine

/-- NNN zero-extended to 16 bits (spec/30_encoding.md R73). -/
def zextNNN (nnn : Imm12) : Word := nnn.setWidth 16

/-- A byte zero-extended to 16 bits (spec/00_scope.md R9). -/
def zextByte (b : Byte) : Word := b.setWidth 16

/-- The target of BNNN: NNN + V[0], not reduced to 12 bits (spec/40_control_flow.md R108). -/
def State.indexedTarget (s : State) (nnn : Imm12) : Word := zextNNN nnn + zextByte (s.getV 0)

/-- I as the mathematical integer addresses are computed from (spec/20_memory.md R54). -/
def State.base (s : State) : Nat := s.index.toNat

/-- The number of registers FX55 and FX65 move: X + 1 (spec/30_encoding.md R73). -/
def regCount (x : RegId) : Nat := x + 1

/-- I after FX55 or FX65: (I + X + 1) mod 2^16 (spec/42_index_memory.md R135, R136). -/
def State.indexPast (s : State) (x : RegId) : Word := s.index + BitVec.ofNat 16 (regCount x)

/-- The base address of the glyph of a value: V[X] * 5, not masked (spec/42_index_memory.md R133). -/
def glyphAddress (b : Byte) : Word := zextByte b * 5

/-- The decimal digits of a byte, hundreds first, one to a byte (spec/42_index_memory.md R134, D31). -/
def bcdDigits (b : Byte) : List Byte :=
  [BitVec.ofNat 8 (b.toNat / 100), BitVec.ofNat 8 (b.toNat / 10 % 10), BitVec.ofNat 8 (b.toNat % 10)]

/-- Key k is pressed (spec/10_state.md R31). -/
def State.keyDown (s : State) (k : Nat) : Bool := s.keypad.getLsbD k

/-- The lowest-numbered pressed key, if any (spec/44_keypad_timers.md R153). -/
def State.lowestKey (s : State) : Option Nat := (List.range 16).find? s.keyDown

/-- The 8×N rectangle at (x0, y0) lies wholly inside the 64×32 grid, or N = 0 (spec/43_display.md R142, D4). -/
def spriteFits (x0 y0 rows : Nat) : Bool := decide (rows = 0 ∨ x0 ≤ 56 ∧ y0 + rows ≤ 32)

/-- Pixel `col` of a sprite byte: bit 7 is column 0, the leftmost (spec/43_display.md R140, D15; log entry 10, PRESUMED, unsafe). -/
def spriteBit (b : Byte) (col : Nat) : Bool := b.getLsbD (7 - col)

end Sys2Proof.Machine
end

