-- ==== Sys2Proof/Machine/Flags.lean ====
section
/-! DEFINITION. Every flag computation, each a value for VF (spec/10_state.md R21), the order of the two writes of
the flag-writing instructions (spec/41_alu.md R110), and the sprite blitter with its collision flag
(spec/43_display.md R142). -/

namespace Sys2Proof.Machine

/-- VF holds a flag as 0 or 1 (spec/10_state.md R21). -/
def flagByte (c : Bool) : Byte := if c then 1 else 0

/-- 8XY4: carry, 1 if the integer sum exceeds 255 (spec/41_alu.md R117). -/
def carryFlag (a b : Byte) : Byte := flagByte (decide (255 < a.toNat + b.toNat))

/-- 8XY5 and 8XY7: 0 if the subtrahend exceeds the minuend (borrow), else 1 (spec/41_alu.md R118, R120). -/
def noBorrowFlag (minuend subtrahend : Byte) : Byte := flagByte (decide (subtrahend.toNat ≤ minuend.toNat))

/-- 8XY6: the bit shifted out at the bottom (spec/41_alu.md R119). -/
def lowBitFlag (a : Byte) : Byte := a &&& 1

/-- 8XYE: the bit shifted out at the top (spec/41_alu.md R121). -/
def highBitFlag (a : Byte) : Byte := (a >>> 7) &&& 1

/-- FX1E: 1 if the integer sum leaves the 12-bit address range (spec/42_index_memory.md R132). -/
def indexFlag (i : Word) (b : Byte) : Byte := flagByte (decide (0xFFF < i.toNat + b.toNat))

/-- The two register writes of a flag-writing instruction of group 8, in order: first the flag into VF, then
the result into V[X], computed from the registers as the first write left them (spec/41_alu.md R110, D13;
log entry 8, UNVERIFIED, unsafe). -/
def State.flagThenResult (s : State) (flag : Byte) (x : RegId) (result : State → Byte) : State :=
  let t := s.setV .vf flag
  t.setV x (result t)

/-- One pixel of a sprite: a 1 bit flips the pixel under it, and the collision flag is set if that pixel was on; a 0
bit leaves both alone (spec/43_display.md R140, R142). -/
def blitPixel (on : Bool) (x y : Nat) (p : Frame × Bool) : Frame × Bool :=
  if on then (p.1.flip x y, p.2 || p.1.pixel x y) else p

/-- One sprite row, columns 0 to 7 (spec/43_display.md R142). -/
def blitRow (b : Byte) (x0 y : Nat) (p : Frame × Bool) : Frame × Bool :=
  (List.range 8).foldl (fun p col => blitPixel (spriteBit b col) (x0 + col) y p) p

/-- The rows of a sprite from row `y` down (spec/43_display.md R142). -/
def blitRows : List Byte → Nat → Nat → Frame × Bool → Frame × Bool
  | [], _, _, p => p
  | b :: bs, x0, y, p => blitRows bs x0 (y + 1) (blitRow b x0 y p)

/-- XOR the sprite at memory[I..I+rows) onto the framebuffer at (x0, y0), set `drawFlag`, and leave the collision flag
in VF: 1 if any pixel went from 1 to 0, else 0 (spec/43_display.md R142, D14). -/
def State.drawSprite (s : State) (x0 y0 rows : Nat) : State :=
  let p := blitRows (s.readBytes s.base rows) x0 y0 (s.framebuffer, false)
  (s.setFrame p.1).setV .vf (flagByte p.2)

end Sys2Proof.Machine
end

