-- ==== Sys2Proof/Machine/Alu.lean ====
section
/-! DEFINITION. Register load, ALU and random instructions (spec/41_alu.md). Each ends with PC + 2; none can fault. -/

namespace Sys2Proof.Machine

/-- 6XNN `LD Vx, NN` (spec/41_alu.md R111). -/
def execLdImm (x : RegId) (nn : Byte) (s : State) : Out := .next (s.setV x nn).advance

/-- 7XNN `ADD Vx, NN`, wrapping, no carry flag (spec/41_alu.md R112). -/
def execAddImm (x : RegId) (nn : Byte) (s : State) : Out := .next (s.setV x (s.getV x + nn)).advance

/-- 8XY0 `LD Vx, Vy` (spec/41_alu.md R113). -/
def execLdReg (x y : RegId) (s : State) : Out := .next (s.setV x (s.getV y)).advance

/-- 8XY1 `OR Vx, Vy`, VF not written (spec/41_alu.md R114). -/
def execOrReg (x y : RegId) (s : State) : Out := .next (s.setV x (s.getV x ||| s.getV y)).advance

/-- 8XY2 `AND Vx, Vy`, VF not written (spec/41_alu.md R115). -/
def execAndReg (x y : RegId) (s : State) : Out := .next (s.setV x (s.getV x &&& s.getV y)).advance

/-- 8XY3 `XOR Vx, Vy`, VF not written (spec/41_alu.md R116). -/
def execXorReg (x y : RegId) (s : State) : Out := .next (s.setV x (s.getV x ^^^ s.getV y)).advance

/-- 8XY4 `ADD Vx, Vy`, VF = carry, written first (spec/41_alu.md R117). -/
def execAddReg (x y : RegId) (s : State) : Out :=
  .next (s.flagThenResult (carryFlag (s.getV x) (s.getV y)) x fun t => t.getV x + t.getV y).advance

/-- 8XY5 `SUB Vx, Vy`, VF = not borrow, written first (spec/41_alu.md R118). -/
def execSubReg (x y : RegId) (s : State) : Out :=
  .next (s.flagThenResult (noBorrowFlag (s.getV x) (s.getV y)) x fun t => t.getV x - t.getV y).advance

/-- 8XY6 `SHR Vx`, VF = the bit shifted out, written first; the Y field has no effect (spec/41_alu.md R119). -/
def execShr (x _y : RegId) (s : State) : Out :=
  .next (s.flagThenResult (lowBitFlag (s.getV x)) x fun t => t.getV x >>> 1).advance

/-- 8XY7 `SUBN Vx, Vy`, VF = not borrow, written first (spec/41_alu.md R120). -/
def execSubnReg (x y : RegId) (s : State) : Out :=
  .next (s.flagThenResult (noBorrowFlag (s.getV y) (s.getV x)) x fun t => t.getV y - t.getV x).advance

/-- 8XYE `SHL Vx`, VF = the bit shifted out, written first; the Y field has no effect (spec/41_alu.md R121). -/
def execShl (x _y : RegId) (s : State) : Out :=
  .next (s.flagThenResult (highBitFlag (s.getV x)) x fun t => t.getV x <<< 1).advance

/-- CXNN `RND Vx, NN`: a fresh free byte AND NN (spec/41_alu.md R122; log entry 2, DESIGN CHOICE, safe). -/
def execRnd (x : RegId) (nn : Byte) (s : State) : Out := .next (s.countDraw.setV x (s.nextDraw &&& nn)).advance

end Sys2Proof.Machine
end

