-- ==== Sys2Proof/Machine/ControlFlow.lean ====
section
/-! DEFINITION. The control transfer instructions (spec/40_control_flow.md). None writes a V register, I, memory, the
framebuffer or the timers (R100). -/

namespace Sys2Proof.Machine

/-- 00EE `RET`: StackUnderflow if SP = 0; else SP - 1 and PC to the popped address plus 2
(spec/40_control_flow.md R101). SP above 16 has no slot to read (log entry 6, DESIGN CHOICE, safe). -/
def execRet (s : State) : Out :=
  if s.sp = 0 then .next (s.raise .stackUnderflow)
  else match s.pop with
    | some (w, t) => .next (t.jumpTo (w + 2))
    | none => .fault .stackSlotMissing

/-- 1NNN `JP NNN` (spec/40_control_flow.md R102). -/
def execJp (nnn : Imm12) (s : State) : Out := .next (s.jumpTo (zextNNN nnn))

/-- 2NNN `CALL NNN`: StackOverflow if SP = 16; else push the address of this CALL and jump
(spec/40_control_flow.md R103). SP above 16 has no slot to write (log entry 6, DESIGN CHOICE, safe). -/
def execCall (nnn : Imm12) (s : State) : Out :=
  if s.sp = 16 then .next (s.raise .stackOverflow)
  else match s.push s.pc with
    | some t => .next (t.jumpTo (zextNNN nnn))
    | none => .fault .stackSlotMissing

/-- 3XNN `SE Vx, NN` (spec/40_control_flow.md R104). -/
def execSeImm (x : RegId) (nn : Byte) (s : State) : Out := .next (s.skipIf (s.getV x == nn))

/-- 4XNN `SNE Vx, NN` (spec/40_control_flow.md R105). -/
def execSneImm (x : RegId) (nn : Byte) (s : State) : Out := .next (s.skipIf (s.getV x != nn))

/-- 5XY0 `SE Vx, Vy` (spec/40_control_flow.md R106). -/
def execSeReg (x y : RegId) (s : State) : Out := .next (s.skipIf (s.getV x == s.getV y))

/-- 9XY0 `SNE Vx, Vy` (spec/40_control_flow.md R107). -/
def execSneReg (x y : RegId) (s : State) : Out := .next (s.skipIf (s.getV x != s.getV y))

/-- BNNN `JP V0, NNN` (spec/40_control_flow.md R108). -/
def execJpV0 (nnn : Imm12) (s : State) : Out := .next (s.jumpTo (s.indexedTarget nnn))

end Sys2Proof.Machine
end

