-- ==== Sys2Proof/Machine/Display.lean ====
section
/-! DEFINITION. The display instructions (spec/43_display.md). -/

namespace Sys2Proof.Machine

/-- 00E0 `CLS` (spec/43_display.md R141). -/
def execCls (s : State) : Out := .next (s.setFrame Frame.blank).advance

/-- DXYN `DRW Vx, Vy, N`: the coordinates are the values on entry; the sprite's bytes must lie in memory, checked
first, and its rectangle inside the grid, checked second, both before anything is written
(spec/43_display.md R142, D4, D5, D14, D25; log entry 9, UNVERIFIED, unsafe). -/
def execDrw (x y : RegId) (n : Nibble) (s : State) : Out :=
  let x0 := (s.getV x).toNat
  let y0 := (s.getV y).toNat
  if ¬ s.rangeInMemory n.toNat then .next (s.raise .memoryOutOfRange)
  else if ¬ spriteFits x0 y0 n.toNat then .next (s.raise .drawOutOfBounds)
  else .next (s.drawSprite x0 y0 n.toNat).advance

end Sys2Proof.Machine
end

