-- ==== Sys2Proof/Machine/IndexMemory.lean ====
section
/-! DEFINITION. Index register and memory instructions (spec/42_index_memory.md). Each ends with PC + 2 unless it
raises MemoryOutOfRange, which it checks before its first write (R130, D5). -/

namespace Sys2Proof.Machine

/-- ANNN `LD I, NNN` (spec/42_index_memory.md R131). -/
def execLdI (nnn : Imm12) (s : State) : Out := .next (s.setIndex (zextNNN nnn)).advance

/-- FX1E `ADD I, Vx`: VF first, then I, which reads V[X] again (spec/42_index_memory.md R132). -/
def execAddI (x : RegId) (s : State) : Out :=
  let t := s.setV .vf (indexFlag s.index (s.getV x))
  .next (t.setIndex (t.index + zextByte (t.getV x))).advance

/-- FX29 `LD F, Vx` (spec/42_index_memory.md R133). -/
def execLdF (x : RegId) (s : State) : Out := .next (s.setIndex (glyphAddress (s.getV x))).advance

/-- FX33 `LD B, Vx`: three digits at I, I + 1, I + 2 (spec/42_index_memory.md R134). -/
def execLdB (x : RegId) (s : State) : Out :=
  if s.rangeInMemory 3 then .next (s.writeBytes s.base (bcdDigits (s.getV x))).advance
  else .next (s.raise .memoryOutOfRange)

/-- FX55 `LD [I], Vx`: V[0..X] to memory[I..I+X], then I past them (spec/42_index_memory.md R135). -/
def execStRegs (x : RegId) (s : State) : Out :=
  if s.rangeInMemory (regCount x) then
    .next ((s.writeBytes s.base (s.regsUpTo x)).setIndex (s.indexPast x)).advance
  else .next (s.raise .memoryOutOfRange)

/-- FX65 `LD Vx, [I]`: memory[I..I+X] to V[0..X], then I past them (spec/42_index_memory.md R136). -/
def execLdRegs (x : RegId) (s : State) : Out :=
  if s.rangeInMemory (regCount x) then .next ((s.loadRegs s.base x).setIndex (s.indexPast x)).advance
  else .next (s.raise .memoryOutOfRange)

end Sys2Proof.Machine
end

