-- ==== Sys2Proof/Machine/KeypadTimers.lean ====
section
/-! DEFINITION. Keypad and timer instructions (spec/44_keypad_timers.md). The timer phase of the same step follows
them (R150; Cycle.lean). -/

namespace Sys2Proof.Machine

/-- EX9E `SKP Vx`: skip if key V[X] is pressed; KeyIndexOutOfRange above 15 (spec/44_keypad_timers.md R151). -/
def execSkp (x : RegId) (s : State) : Out :=
  if 15 < (s.getV x).toNat then .next (s.raise .keyIndexOutOfRange)
  else .next (s.skipIf (s.keyDown (s.getV x).toNat))

/-- EXA1 `SKNP Vx`: skip if key V[X] is not pressed; KeyIndexOutOfRange above 15 (spec/44_keypad_timers.md R152). -/
def execSknp (x : RegId) (s : State) : Out :=
  if 15 < (s.getV x).toNat then .next (s.raise .keyIndexOutOfRange)
  else .next (s.skipIf (!s.keyDown (s.getV x).toNat))

/-- FX07 `LD Vx, DT` (spec/44_keypad_timers.md R154). -/
def execLdVxDT (x : RegId) (s : State) : Out := .next (s.setV x s.delayTimer).advance

/-- FX0A `LD Vx, K`: the lowest pressed key into V[X]; with no key pressed nothing is written, PC keeps its value, and
the step has no timer phase (spec/44_keypad_timers.md R153; Cycle.lean `awaitsKey`; log entry 7, UNVERIFIED, unsafe). -/
def execLdVxK (x : RegId) (s : State) : Out :=
  match s.lowestKey with
  | some k => .next (s.setV x (BitVec.ofNat 8 k)).advance
  | none => .next s

/-- FX15 `LD DT, Vx` (spec/44_keypad_timers.md R155). -/
def execLdDTVx (x : RegId) (s : State) : Out := .next (s.setDelay (s.getV x)).advance

/-- FX18 `LD ST, Vx` (spec/44_keypad_timers.md R156). -/
def execLdSTVx (x : RegId) (s : State) : Out := .next (s.setSound (s.getV x)).advance

end Sys2Proof.Machine
end

