-- ==== Sys2Proof/Machine/Step.lean ====
section
/-! DEFINITION. One `step()`: halted gate, fetch, decode, execute, timers (spec/30_encoding.md R70). -/

namespace Sys2Proof.Machine

/-- One atomic step of the core (spec/30_encoding.md R70). A halted core changes nothing (spec/60_exceptions.md R163);
a PC above 0xFFE raises FetchOutOfRange (spec/20_memory.md R55); a reserved word is reported and passed over
(spec/60_exceptions.md R170); an instruction has its effect and then its timer phase. -/
def step (s : State) : Host.Outcome State Fault Refusal :=
  if s.fault.isSome then .next s
  else if ¬ s.fetchable then .next (s.raise .fetchOutOfRange)
  else match decode s.fetchWord with
    | .error _ => .next (s.reportUnknown s.fetchWord).timerPhase
    | .ok i => match exec i s with
      | .next t => .next (afterExec i s t)
      | .fault r => .fault r
      | .refused r => .refused r

/-- `s` with the instruction of `nbits` bits whose value is `w` (bit 0 the least significant bit of its one 16-bit
word) stored where `step` fetches next; nothing else changes (log entry 14, DESIGN CHOICE, safe). -/
def State.withFetchWord (s : State) (nbits w : Nat) : State := s.placeWord (BitVec.ofNat 16 (w % 2 ^ nbits))

end Sys2Proof.Machine
end

