-- ==== Sys2Proof/Machine/Boundary.lean ====
section
/-! DEFINITION. What the host may do to the core between two steps (spec/60_exceptions.md R183,
spec/10_state.md R35, R36). Each operation is atomic, also on a halted core (R163). -/

namespace Sys2Proof.Machine

/-- The answer of `loadProgram` (spec/60_exceptions.md R171). -/
inductive LoadAnswer where
  | ok
  | romTooLarge
deriving DecidableEq, Repr

/-- `loadProgram(bytes)`: RomTooLarge and nothing copied above 3584 bytes, else the bytes verbatim from 0x200; no
other state changes (spec/70_reset_and_hazards.md R191, spec/20_memory.md R65). -/
def State.loadProgram (s : State) (bytes : List Byte) : State × LoadAnswer :=
  if Config.progMax < bytes.length then (s, .romTooLarge) else (s.writeBytes Config.progBase bytes, .ok)

/-- A keypad update: the whole port (spec/60_exceptions.md R179). -/
def State.setKeys (s : State) (keys : BitVec 16) : State := { s with keypad := keys }

/-- `draw_ack`: `drawFlag <- 0` and nothing else (spec/60_exceptions.md R180, D21). -/
def State.drawAck (s : State) : State := { s with drawFlag := false }

/-- The host's moves other than `step()` (spec/60_exceptions.md R183). -/
inductive HostMove where
  /-- `initialize()`. -/
  | restart
  /-- `loadProgram(bytes)`. -/
  | load (bytes : List Byte)
  /-- Keypad update. -/
  | keys (keys : BitVec 16)
  /-- Framebuffer read. -/
  | readFrame
  /-- `draw_ack`. -/
  | drawAck
  /-- Read of any state element. -/
  | readState
  /-- The host stops stepping. -/
  | stop
deriving DecidableEq, Repr

/-- What a move gives back to the host (spec/60_exceptions.md R183). -/
inductive HostAnswer where
  | nothing
  | loaded (a : LoadAnswer)
  | frame (f : Frame)
  | contents (s : State)
deriving DecidableEq, Repr

/-- The effect and the answer of a host move (spec/60_exceptions.md R183). -/
def hostMove (m : HostMove) (s : State) : State × HostAnswer :=
  match m with
  | .restart => (s.restart, .nothing)
  | .load bytes => ((s.loadProgram bytes).1, .loaded (s.loadProgram bytes).2)
  | .keys k => (s.setKeys k, .nothing)
  | .readFrame => (s, .frame s.framebuffer)
  | .drawAck => (s.drawAck, .nothing)
  | .readState => (s, .contents s)
  | .stop => (s, .nothing)

end Sys2Proof.Machine
end

