-- ==== Sys2Proof/Safety.lean ====
section
/-! DEFINITION. What counts as a safe state and a safe run, and the terms in which claims speak of what an instruction
leaves unchanged. -/

namespace Sys2Proof.Machine

/-- The invariants of every reachable state that spec/10_state.md R37 gives as bounds: SP ≤ 16 (b), every stack slot
0 or at most 0xFFE (c), PC ≤ 0x10FE while no fault is latched (d); and the model's own choice, that memory is in its
canonical form (log entry 13, DESIGN CHOICE, safe). (R37 (a) and (h) hold by the types of the cells and of I.) -/
structure State.Inv (s : State) : Prop where
  memWf : s.mem.wf = true
  spLe : s.sp.toNat ≤ 16
  stackLe : ∀ k : Fin 16, s.stack[k].toNat ≤ 0xFFE
  pcLe : s.fault = none → s.pc.toNat ≤ 0x10FE

/-- The core is halted: the fault latch is set (spec/00_scope.md R12, spec/60_exceptions.md R163). -/
def State.halted (s : State) : Bool := s.fault.isSome

/-- The core is parked: not halted, and the word at PC is a 1NNN to PC itself (spec/70_reset_and_hazards.md R195). -/
def State.parked (s : State) : Prop :=
  s.fault = none ∧ s.pc.toNat ≤ 0xFFE ∧ ∃ nnn : Imm12, decode s.fetchWord = .ok (.jp nnn) ∧ zextNNN nnn = s.pc

/-- The states of every run: `initialize()` first, then any interleaving of steps and host moves (spec/00_scope.md R5,
spec/70_reset_and_hazards.md R192). The keypad port holds whatever the host set. -/
inductive Reachable : State → Prop where
  | reset : Reachable State.reset
  | step (s t : State) : Reachable s → step s = .next t → Reachable t
  | host (s : State) (m : HostMove) : Reachable s → Reachable (hostMove m s).1

/-- Every element of the core's own state reads as spec/10_state.md R38 gives it right after reset. -/
structure State.HasResetValues (s : State) : Prop where
  v : ∀ r : RegId, s.getV r = 0
  index : s.index = 0
  pc : s.pc = 0x200
  sp : s.sp = 0
  stack : ∀ k : Fin 16, s.stack[k] = 0
  delayTimer : s.delayTimer = 0
  soundTimer : s.soundTimer = 0
  font : ∀ a : Nat, a < 80 → s.readByte a = fontset.getD a 0
  rest : ∀ a : Nat, 80 ≤ a → a < Config.memSize → s.readByte a = 0
  framebuffer : ∀ k : Nat, k < 2048 → s.framebuffer.cell k = false
  drawFlag : s.drawFlag = true
  fault : s.fault = none

/-- The byte at `p` once `n` bytes `b 0`, `b 1`, ... are stored from address `a` up: the stored byte in that range, the
byte of `s` elsewhere (spec/20_memory.md R60, R62). -/
def State.byteAfterStore (s : State) (a n : Nat) (b : Nat → Byte) (p : Nat) : Byte :=
  if a ≤ p ∧ p < a + n then b (p - a) else s.readByte p

/-! Frames: which parts of the state two states share. -/

/-- The parts of the state a frame speaks of: all of State but the program counter. -/
inductive Part where
  /-- One V register. -/
  | reg (r : RegId)
  /-- I. -/
  | index
  /-- SP. -/
  | sp
  /-- One stack slot. -/
  | slot (k : Fin 16)
  /-- `delay_timer`. -/
  | delayTimer
  /-- `sound_timer`. -/
  | soundTimer
  /-- One byte of memory. -/
  | byte (a : Nat)
  /-- The cells of the framebuffer. -/
  | pixels
  /-- `drawFlag`. -/
  | drawFlag
  /-- The fault latch. -/
  | fault
  /-- The keypad port. -/
  | keypad
  /-- The output trace. -/
  | trace
  /-- The model's own counter of random draws. -/
  | draws
deriving DecidableEq, Repr

/-- `t` reads as `s` does in every part but those in `w`; the program counter may differ. -/
structure KeepsAllBut (w : Part → Prop) (s t : State) : Prop where
  regs : ∀ r : RegId, ¬ w (.reg r) → t.getV r = s.getV r
  index : ¬ w .index → t.index = s.index
  sp : ¬ w .sp → t.sp = s.sp
  slots : ∀ k : Fin 16, ¬ w (.slot k) → t.stack[k] = s.stack[k]
  delayTimer : ¬ w .delayTimer → t.delayTimer = s.delayTimer
  soundTimer : ¬ w .soundTimer → t.soundTimer = s.soundTimer
  bytes : ∀ a : Nat, ¬ w (.byte a) → t.readByte a = s.readByte a
  pixels : ¬ w .pixels → ∀ x y : Nat, t.framebuffer.pixel x y = s.framebuffer.pixel x y
  drawFlag : ¬ w .drawFlag → t.drawFlag = s.drawFlag
  fault : ¬ w .fault → t.fault = s.fault
  keypad : ¬ w .keypad → t.keypad = s.keypad
  trace : ¬ w .trace → t.trace = s.trace
  draws : ¬ w .draws → t.drawIndex = s.drawIndex

/-- The instruction raised `c` and had no effect of its own: the latch holds `c`, PC and everything else are as before
(spec/60_exceptions.md R162). -/
def Raised (c : MachineFault) (s t : State) : Prop :=
  t.fault = some c ∧ t.pc = s.pc ∧ KeepsAllBut (fun p => p = .fault) s t

end Sys2Proof.Machine
end

