-- ==== Sys2Proof/Certificates/Slice0/Obligations.lean ====
section
/-! DEFINITION. The statements for the provers, each from the numbered rules of spec/. A result statement says for
every state and operands its hypotheses admit that the instruction answers a next state, what that state holds, and
what it leaves unchanged. -/

open Sys2Proof Sys2Proof.Machine

/-! ## Encoding -/

/-- Decoding the word of any instruction gives the instruction back, every operand included (R74, R75). -/
def Obligations.DecodeOfEncodeIsTheInstruction : Prop :=
  ∀ i : Instr, decode (encode i) = .ok i

/-- Encoding what a word decodes to gives the word back: no bit of the word is dropped (R72, R73, R75). That this holds
of the ignored Y field of 8XY6 and 8XYE too is the model's choice, not the spec's: Instr keeps the field
(log entry 18, DESIGN CHOICE). -/
def Obligations.EncodeOfDecodeIsTheWord : Prop :=
  ∀ (op : Word) (i : Instr), decode op = .ok i → encode i = op

/-- A word decodes exactly when it matches a row of the opcode map, and is rejected as unrecognized when it matches
none (R74, R76). That every literal digit must match is the spec's decision D9. -/
def Obligations.DecodeAcceptsExactlyTheOpcodeMap : Prop :=
  ∀ op : Word,
    ((∃ i, decode op = .ok i) ↔ ∃ r ∈ opcodeMap, op &&& r.mask = r.value) ∧
    ((¬ ∃ r ∈ opcodeMap, op &&& r.mask = r.value) → decode op = .error (.unrecognized op))

/-- No word matches two different rows of the opcode map (R74). -/
def Obligations.OpcodeRowsAreDisjoint : Prop :=
  ∀ (op : Word) (r q : OpcodeRow), r ∈ opcodeMap → q ∈ opcodeMap →
    op &&& r.mask = r.value → op &&& q.mask = q.value → r = q

/-- Words written out from the encodings of R75 decode to the instructions they stand for; the last three are reserved
(R76). -/
def Obligations.WrittenWordsDecode : Prop :=
  decode 0x00E0 = .ok .cls ∧ decode 0x2300 = .ok (.call 0x300) ∧ decode 0x5AB0 = .ok (.seReg 10 11) ∧
  decode 0x8AB4 = .ok (.addReg 10 11) ∧ decode 0xCA0F = .ok (.rnd 10 0x0F) ∧ decode 0xDABC = .ok (.drw 10 11 12) ∧
  decode 0xEA9E = .ok (.skp 10) ∧ decode 0xF30A = .ok (.ldVxK 3) ∧ decode 0xFA65 = .ok (.ldRegs 10) ∧
  decode 0x0000 = .error (.unrecognized 0x0000) ∧ decode 0x5121 = .error (.unrecognized 0x5121) ∧
  decode 0xF175 = .error (.unrecognized 0xF175)

/-- An instruction is two bytes, the high byte first; what follows them is left over (R56, R71). -/
def Obligations.InstructionIsTwoBytesHighFirst : Prop :=
  ∀ (i : Instr) (rest : List Byte), decodeBytes (encodeBytes i ++ rest) = .ok (i, rest)

/-! ## The step -/

/-- When the two bytes at PC decode to `i`, the step is `exec i` with the end of the step added: nothing after a fault
or after an FX0A that found no key pressed (D10, D22), the timer phase otherwise (R70). The fourth clause is the model's
choice, not the spec's: its one case is the model's own stop of CALL and RET without a stack slot, in states the spec
calls unreachable (log entry 6, DESIGN CHOICE). -/
def Obligations.StepRunsTheDecodedInstruction : Prop :=
  ∀ (s : State) (i : Instr), s.fault = none → s.pc.toNat ≤ 0xFFE →
    decodeBytes [s.readByte s.pc.toNat, s.readByte (s.pc.toNat + 1)] = .ok (i, []) →
    (∀ t, exec i s = .next t → t.fault ≠ none → step s = .next t) ∧
    (∀ t, exec i s = .next t → (∃ x, i = .ldVxK x) → s.keypad = 0 → step s = .next t) ∧
    (∀ t, exec i s = .next t → t.fault = none → ¬ ((∃ x, i = .ldVxK x) ∧ s.keypad = 0) →
      step s = .next t.timerPhase) ∧
    (∀ r, exec i s = .fault r → step s = .fault r)

/-- A halted core's step changes nothing and sends nothing (R163, decision D29). -/
def Obligations.HaltedStepChangesNothing : Prop :=
  ∀ (s : State) (c : MachineFault), s.fault = some c → step s = .next s

/-- A PC above 0xFFE raises FetchOutOfRange, with no timer phase and no event (R55, decision D6). -/
def Obligations.FetchOutsideMemoryFaults : Prop :=
  ∀ s : State, s.fault = none → 0xFFE < s.pc.toNat →
    ∃ t, step s = .next t ∧ Raised .fetchOutOfRange s t

/-- A reserved word sends UnknownOpcode with the word, PC advances by 2, the timers tick (with their Beep after the
diagnostic), and nothing else changes (R170, R173, decision D8). -/
def Obligations.ReservedWordIsReportedAndPassedOver : Prop :=
  ∀ (s : State) (e : DecodeError), s.fault = none → s.pc.toNat ≤ 0xFFE → decode s.fetchWord = .error e →
    ∃ t, step s = .next t ∧ t.pc = s.pc + 2 ∧
      t.trace = s.trace ++ .unknownOpcode s.fetchWord :: (if s.soundTimer = 1 then [.beep] else []) ∧
      t.delayTimer.toNat = s.delayTimer.toNat - 1 ∧ t.soundTimer.toNat = s.soundTimer.toNat - 1 ∧
      KeepsAllBut (fun p => p = .delayTimer ∨ p = .soundTimer ∨ p = .trace) s t

/-- The fetched word is memory[PC] * 256 + memory[PC+1] (R55, R56). -/
def Obligations.FetchedWordIsBigEndian : Prop :=
  ∀ s : State, s.fetchWord.toNat = (s.readByte s.pc.toNat).toNat * 256 + (s.readByte (s.pc.toNat + 1)).toNat

/-- The timer phase takes 1 off each timer above 0, sends Beep exactly when sound_timer was 1, and changes nothing
else (R176, R177). -/
def Obligations.TimerPhaseTicksAndBeeps : Prop :=
  ∀ s : State, s.timerPhase.delayTimer.toNat = s.delayTimer.toNat - 1 ∧
    s.timerPhase.soundTimer.toNat = s.soundTimer.toNat - 1 ∧
    s.timerPhase.trace = s.trace ++ (if s.soundTimer.toNat = 1 then [.beep] else []) ∧
    s.timerPhase.pc = s.pc ∧
    KeepsAllBut (fun p => p = .delayTimer ∨ p = .soundTimer ∨ p = .trace) s s.timerPhase

/-- A step that completes an instruction, a waiting FX0A apart, takes exactly 1 off each timer above 0 that the
instruction did not write (R176, R178, R37(e)). -/
def Obligations.StepTicksEachTimerOnce : Prop :=
  ∀ (s t : State) (i : Instr), s.fault = none → s.pc.toNat ≤ 0xFFE → decode s.fetchWord = .ok i →
    step s = .next t → t.fault = none → ((∃ x, i = .ldVxK x) → s.keypad ≠ 0) →
    ((∀ x, i ≠ .ldDTVx x) → t.delayTimer.toNat = s.delayTimer.toNat - 1) ∧
    ((∀ x, i ≠ .ldSTVx x) → t.soundTimer.toNat = s.soundTimer.toNat - 1)

/-! ## Invariants and whole-machine rules -/

/-- From every state that meets R37 (b), (c) and (d) and whose memory is in canonical form, a step answers a next state
that meets them too. The canonical form (memWf) is the model's choice, not R37's (log entry 13, DESIGN CHOICE).
R37 (e), (f) and (g) are about a step and stand in StepTicksEachTimerOnce, OnlyRestartClearsTheLatch and
StepOnlyRaisesDrawFlag. -/
def Obligations.StepKeepsTheInvariant : Prop :=
  ∀ s : State, s.Inv → ∃ t, step s = .next t ∧ t.Inv

/-- The state after reset meets R37 (b), (c) and (d), and its memory is in canonical form. The canonical form (memWf) is
the model's choice, not R37's (log entry 13, DESIGN CHOICE). -/
def Obligations.ResetMeetsTheInvariant : Prop := State.reset.Inv

/-- Every host move keeps R37 (b), (c) and (d) and the canonical form of memory. The canonical form (memWf) is the
model's choice, not R37's (log entry 13, DESIGN CHOICE). -/
def Obligations.HostMovesKeepTheInvariant : Prop :=
  ∀ (m : HostMove) (s : State), s.Inv → (hostMove m s).1.Inv

/-- In every run, that is any interleaving of steps and host moves after reset, every state meets R37 (b), (c) and (d),
has its memory in canonical form, and can step on (R5, R37, R192). The canonical form (memWf) is the model's choice, not
R37's (log entry 13, DESIGN CHOICE). -/
def Obligations.ReachableStatesMeetTheInvariantAndStepOn : Prop :=
  ∀ s : State, Reachable s → s.Inv ∧ ∃ t, step s = .next t

/-- A step that sets the fault latch writes nothing else at all (R162, decision D1). -/
def Obligations.FaultingStepWritesOnlyTheLatch : Prop :=
  ∀ (s t : State) (c : MachineFault), s.fault = none → step s = .next t → t.fault = some c →
    t = { s with fault := some c }

/-- A set latch keeps its cause through every step and every host move but the reset, which clears it
(R37(f), R163, R174). -/
def Obligations.OnlyRestartClearsTheLatch : Prop :=
  ∀ (s : State) (c : MachineFault), s.fault = some c →
    (∀ t, step s = .next t → t.fault = some c) ∧
    (∀ m : HostMove, m ≠ .restart → (hostMove m s).1.fault = some c) ∧
    (hostMove .restart s).1.fault = none

/-- A step never clears drawFlag, and sets it only by 00E0 or DXYN (R30, R37(g)). -/
def Obligations.StepOnlyRaisesDrawFlag : Prop :=
  ∀ s t : State, step s = .next t →
    (s.drawFlag = true → t.drawFlag = true) ∧
    (t.drawFlag ≠ s.drawFlag →
      decode s.fetchWord = .ok .cls ∨ ∃ x y n, decode s.fetchWord = .ok (.drw x y n))

/-- A step never writes the keypad, and sends at most one UnknownOpcode, only for a reserved word, and then at most one
Beep (R31, R34, R173). -/
def Obligations.StepSendsAtMostOneOfEachEvent : Prop :=
  ∀ s t : State, step s = .next t →
    t.keypad = s.keypad ∧
    ∃ diag beep : List Event, t.trace = s.trace ++ diag ++ beep ∧
      (diag = [] ∨ diag = [.unknownOpcode s.fetchWord] ∧ ∃ e, decode s.fetchWord = .error e) ∧
      (beep = [] ∨ beep = [.beep])

/-- A step draws a random byte only by CXNN, and then one (R33, R182). The counter of draws is the model's own
(log entry 2). -/
def Obligations.OnlyRndDraws : Prop :=
  ∀ s t : State, step s = .next t →
    t.drawIndex = s.drawIndex ∨
    (t.drawIndex = s.drawIndex + 1 ∧ ∃ x nn, decode s.fetchWord = .ok (.rnd x nn))

/-- A parked core stays parked: only the timers and the trace can change (R195, decision D23). -/
def Obligations.ParkedCoreStaysParked : Prop :=
  ∀ s : State, s.parked → ∃ t, step s = .next t ∧ t.parked ∧ t.pc = s.pc ∧
    KeepsAllBut (fun p => p = .delayTimer ∨ p = .soundTimer ∨ p = .trace) s t

/-- Two memories in canonical form that hold the same bytes are the same list: the model's own invariant that makes
equal memories equal data (R28; log entry 13). -/
def Obligations.CanonicalMemoryIsItsBytes : Prop :=
  ∀ m n : Memory, m.wf = true → n.wf = true → (∀ a : Nat, a < 4096 → m.read a = n.read a) → m = n

/-! ## Reset and host operations -/

/-- The state after reset holds the values of R38. The keypad released and the empty trace are the model's choice where
the port was never set (D26) and nothing was sent (log entries 3 and 4). -/
def Obligations.ResetStateHoldsResetValues : Prop :=
  State.reset.HasResetValues ∧ State.reset.keypad = 0 ∧ State.reset.trace = []

/-- `initialize()` in any state, halted or not, gives every element of state its reset value; it does not touch the
keypad and sends no event (R38, R190). The trace of events already sent is kept (log entry 17). -/
def Obligations.RestartSetsEveryElement : Prop :=
  ∀ s : State, (hostMove .restart s).1.HasResetValues ∧
    (hostMove .restart s).1.keypad = s.keypad ∧ (hostMove .restart s).1.trace = s.trace

/-- `loadProgram` copies an image of at most 3584 bytes verbatim to 0x200 and changes nothing else; a longer one
fails with RomTooLarge and copies nothing (R65, R191). -/
def Obligations.LoadProgramCopiesVerbatim : Prop :=
  ∀ (s : State) (bytes : List Byte),
    (bytes.length ≤ 3584 →
      (s.loadProgram bytes).2 = .ok ∧ (s.loadProgram bytes).1.pc = s.pc ∧
      (∀ (i : Nat) (h : i < bytes.length), (s.loadProgram bytes).1.readByte (0x200 + i) = bytes[i]) ∧
      KeepsAllBut (fun p => ∃ a, p = .byte a ∧ 0x200 ≤ a ∧ a < 0x200 + bytes.length) s (s.loadProgram bytes).1) ∧
    (3584 < bytes.length → s.loadProgram bytes = (s, .romTooLarge))

/-- A keypad update writes the port only and `draw_ack` clears drawFlag only (R179, R180, decision D21). -/
def Obligations.KeyUpdateAndDrawAckTouchOnlyTheirPart : Prop :=
  ∀ (s : State) (k : BitVec 16),
    (hostMove (.keys k) s).1.keypad = k ∧ (hostMove (.keys k) s).1.pc = s.pc ∧
    KeepsAllBut (fun p => p = .keypad) s (hostMove (.keys k) s).1 ∧
    (hostMove .drawAck s).1.drawFlag = false ∧ (hostMove .drawAck s).1.pc = s.pc ∧
    KeepsAllBut (fun p => p = .drawFlag) s (hostMove .drawAck s).1

/-! ## Control transfer -/

/-- 1NNN: PC = NNN, and nothing else changes (R102). -/
def Obligations.JpSetsPc : Prop :=
  ∀ (nnn : Imm12) (s : State), ∃ t, exec (.jp nnn) s = .next t ∧ t.pc.toNat = nnn.toNat ∧
    KeepsAllBut (fun _ => False) s t

/-- BNNN: PC = NNN + V[0], not reduced to 12 bits, and nothing else changes (R108). -/
def Obligations.JpV0AddsV0 : Prop :=
  ∀ (nnn : Imm12) (s : State), ∃ t, exec (.jpV0 nnn) s = .next t ∧
    t.pc.toNat = nnn.toNat + (s.getV 0).toNat ∧ KeepsAllBut (fun _ => False) s t

/-- 2NNN pushes the address of the CALL itself and jumps, where a slot is free; with SP = 16 it raises StackOverflow
before any write (R103; the fault is decision D2). -/
def Obligations.CallPushesItsOwnAddress : Prop :=
  ∀ (nnn : Imm12) (s : State),
    (∀ h : s.sp.toNat < 16, ∃ t, exec (.call nnn) s = .next t ∧
      t.stack[s.sp.toNat] = s.pc ∧ t.sp.toNat = s.sp.toNat + 1 ∧ t.pc.toNat = nnn.toNat ∧
      KeepsAllBut (fun p => p = .sp ∨ p = .slot ⟨s.sp.toNat, h⟩) s t) ∧
    (s.sp.toNat = 16 → ∃ t, exec (.call nnn) s = .next t ∧ Raised .stackOverflow s t)

/-- 00EE takes PC to the word below SP plus 2, modulo 2^16, and leaves the slot its value; with SP = 0 it raises
StackUnderflow before any write (R101, R24; the fault is decision D3). -/
def Obligations.RetPopsTheReturnAddress : Prop :=
  ∀ s : State,
    (∀ h : 1 ≤ s.sp.toNat ∧ s.sp.toNat ≤ 16, ∃ t, exec .ret s = .next t ∧
      t.pc.toNat = ((s.stack[s.sp.toNat - 1]).toNat + 2) % 65536 ∧ t.sp.toNat + 1 = s.sp.toNat ∧
      KeepsAllBut (fun p => p = .sp) s t) ∧
    (s.sp.toNat = 0 → ∃ t, exec .ret s = .next t ∧ Raised .stackUnderflow s t)

/-- A RET executed with the stack and SP a CALL left resumes after that CALL, with the SP from before it: a return pops
the most recently pushed address (R24, R101, R103). -/
def Obligations.RetResumesAfterItsCall : Prop :=
  ∀ (nnn : Imm12) (s t u : State), s.sp.toNat < 16 → exec (.call nnn) s = .next t →
    u.stack = t.stack → u.sp = t.sp →
    ∃ w, exec .ret u = .next w ∧ w.pc = s.pc + 2 ∧ w.sp = s.sp

/-- With SP above 16, which the spec calls unreachable (U14), CALL and RET stop: no slot exists and no rule gives an
effect. The model's choice, log entry 6. -/
def Obligations.CallAndRetStopWithoutASlot : Prop :=
  ∀ (nnn : Imm12) (s : State), 16 < s.sp.toNat →
    exec (.call nnn) s = .fault .stackSlotMissing ∧ exec .ret s = .fault .stackSlotMissing

/-- 3XNN and 4XNN: PC + 4 if V[X] equals NN (differs from it), else PC + 2; nothing else changes (R104, R105). -/
def Obligations.SkipsOnImmediate : Prop :=
  ∀ (x : RegId) (nn : Byte) (s : State),
    (∃ t, exec (.seImm x nn) s = .next t ∧ t.pc = (if s.getV x = nn then s.pc + 4 else s.pc + 2) ∧
      KeepsAllBut (fun _ => False) s t) ∧
    (∃ t, exec (.sneImm x nn) s = .next t ∧ t.pc = (if s.getV x = nn then s.pc + 2 else s.pc + 4) ∧
      KeepsAllBut (fun _ => False) s t)

/-- 5XY0 and 9XY0: PC + 4 if V[X] equals V[Y] (differs from it), else PC + 2; nothing else changes (R106, R107). -/
def Obligations.SkipsOnRegisters : Prop :=
  ∀ (x y : RegId) (s : State),
    (∃ t, exec (.seReg x y) s = .next t ∧ t.pc = (if s.getV x = s.getV y then s.pc + 4 else s.pc + 2) ∧
      KeepsAllBut (fun _ => False) s t) ∧
    (∃ t, exec (.sneReg x y) s = .next t ∧ t.pc = (if s.getV x = s.getV y then s.pc + 2 else s.pc + 4) ∧
      KeepsAllBut (fun _ => False) s t)

/-! ## Load, ALU and random -/

/-- 6XNN loads NN; 7XNN adds NN modulo 256 and writes no carry: only V[X] and PC change, VF too only as X
(R111, R112). -/
def Obligations.LoadAndAddImmediate : Prop :=
  ∀ (x : RegId) (nn : Byte) (s : State),
    (∃ t, exec (.ldImm x nn) s = .next t ∧ t.getV x = nn ∧ t.pc = s.pc + 2 ∧
      KeepsAllBut (fun p => p = .reg x) s t) ∧
    (∃ t, exec (.addImm x nn) s = .next t ∧ (t.getV x).toNat = ((s.getV x).toNat + nn.toNat) % 256 ∧
      t.pc = s.pc + 2 ∧ KeepsAllBut (fun p => p = .reg x) s t)

/-- 8XY0 to 8XY3: move, OR, AND, XOR of V[X] and V[Y] into V[X]; VF is not written unless it is V[X]
(R113 to R116). -/
def Obligations.MoveAndLogic : Prop :=
  ∀ (x y : RegId) (s : State),
    (∃ t, exec (.ldReg x y) s = .next t ∧ t.getV x = s.getV y ∧ t.pc = s.pc + 2 ∧
      KeepsAllBut (fun p => p = .reg x) s t) ∧
    (∃ t, exec (.orReg x y) s = .next t ∧ t.getV x = s.getV x ||| s.getV y ∧ t.pc = s.pc + 2 ∧
      KeepsAllBut (fun p => p = .reg x) s t) ∧
    (∃ t, exec (.andReg x y) s = .next t ∧ t.getV x = s.getV x &&& s.getV y ∧ t.pc = s.pc + 2 ∧
      KeepsAllBut (fun p => p = .reg x) s t) ∧
    (∃ t, exec (.xorReg x y) s = .next t ∧ t.getV x = s.getV x ^^^ s.getV y ∧ t.pc = s.pc + 2 ∧
      KeepsAllBut (fun p => p = .reg x) s t)

/-- 8XY4, all five cases of R117: the sum modulo 256 in V[X] and the carry in VF; with VF as an operand or as the
destination, the flag is written first and the sum reads it, by decision D13 of the spec (log entry 8). -/
def Obligations.AddRegisters : Prop :=
  ∀ (x y : RegId) (s : State), ∃ t, exec (.addReg x y) s = .next t ∧ t.pc = s.pc + 2 ∧
    KeepsAllBut (fun p => p = .reg x ∨ p = .reg 15) s t ∧
    (x ≠ 15 → y ≠ 15 →
      (t.getV x).toNat = ((s.getV x).toNat + (s.getV y).toNat) % 256 ∧
      (t.getV 15).toNat = if 256 ≤ (s.getV x).toNat + (s.getV y).toNat then 1 else 0) ∧
    (x = 15 → y ≠ 15 → (t.getV 15).toNat =
      ((if 255 < (s.getV 15).toNat + (s.getV y).toNat then 1 else 0) + (s.getV y).toNat) % 256) ∧
    (x ≠ 15 → y = 15 →
      (t.getV x).toNat =
        ((s.getV x).toNat + if 255 < (s.getV x).toNat + (s.getV 15).toNat then 1 else 0) % 256 ∧
      (t.getV 15).toNat = if 255 < (s.getV x).toNat + (s.getV 15).toNat then 1 else 0) ∧
    (x = 15 → y = 15 → (t.getV 15).toNat = if 255 < 2 * (s.getV 15).toNat then 2 else 0)

/-- 8XY5, all five cases of R118: V[X] - V[Y] modulo 256 in V[X] and the absence of a borrow in VF; with VF as an
operand or as the destination, the flag is written first and the difference reads it, by decision D13 of the spec
(log entry 8). -/
def Obligations.SubtractRegisters : Prop :=
  ∀ (x y : RegId) (s : State), ∃ t, exec (.subReg x y) s = .next t ∧ t.pc = s.pc + 2 ∧
    KeepsAllBut (fun p => p = .reg x ∨ p = .reg 15) s t ∧
    (x ≠ 15 → y ≠ 15 →
      (t.getV x).toNat = ((s.getV x).toNat + 256 - (s.getV y).toNat) % 256 ∧
      (t.getV 15).toNat = if (s.getV y).toNat ≤ (s.getV x).toNat then 1 else 0) ∧
    (x = 15 → y ≠ 15 → (t.getV 15).toNat =
      ((if (s.getV y).toNat ≤ (s.getV 15).toNat then 1 else 0) + 256 - (s.getV y).toNat) % 256) ∧
    (x ≠ 15 → y = 15 →
      (t.getV x).toNat =
        ((s.getV x).toNat + 256 - if (s.getV 15).toNat ≤ (s.getV x).toNat then 1 else 0) % 256 ∧
      (t.getV 15).toNat = if (s.getV 15).toNat ≤ (s.getV x).toNat then 1 else 0) ∧
    (x = 15 → y = 15 → t.getV 15 = 0)

/-- 8XY7, all five cases of R120: V[Y] - V[X] modulo 256 in V[X] and the absence of a borrow in VF; with VF as an
operand or as the destination, the flag is written first and the difference reads it, by decision D13 of the spec
(log entry 8). -/
def Obligations.SubtractRegistersReversed : Prop :=
  ∀ (x y : RegId) (s : State), ∃ t, exec (.subnReg x y) s = .next t ∧ t.pc = s.pc + 2 ∧
    KeepsAllBut (fun p => p = .reg x ∨ p = .reg 15) s t ∧
    (x ≠ 15 → y ≠ 15 →
      (t.getV x).toNat = ((s.getV y).toNat + 256 - (s.getV x).toNat) % 256 ∧
      (t.getV 15).toNat = if (s.getV x).toNat ≤ (s.getV y).toNat then 1 else 0) ∧
    (x = 15 → y ≠ 15 → (t.getV 15).toNat =
      ((s.getV y).toNat + 256 - if (s.getV 15).toNat ≤ (s.getV y).toNat then 1 else 0) % 256) ∧
    (x ≠ 15 → y = 15 →
      (t.getV x).toNat =
        ((if (s.getV x).toNat ≤ (s.getV 15).toNat then 1 else 0) + 256 - (s.getV x).toNat) % 256 ∧
      (t.getV 15).toNat = if (s.getV x).toNat ≤ (s.getV 15).toNat then 1 else 0) ∧
    (x = 15 → y = 15 → t.getV 15 = 0)

/-- 8XY6: V[X] halved, the lost bit in VF; V[Y] neither read nor written; with X = 0xF the final VF is 0, the
flag being written first by decision D13 of the spec (R119; log entry 8). -/
def Obligations.ShiftRight : Prop :=
  ∀ (x y : RegId) (s : State), ∃ t, exec (.shr x y) s = .next t ∧ t.pc = s.pc + 2 ∧
    KeepsAllBut (fun p => p = .reg x ∨ p = .reg 15) s t ∧
    (x ≠ 15 → (t.getV x).toNat = (s.getV x).toNat / 2 ∧ (t.getV 15).toNat = (s.getV x).toNat % 2) ∧
    (x = 15 → t.getV 15 = 0)

/-- 8XYE: V[X] doubled modulo 256, the lost bit in VF; V[Y] neither read nor written; with X = 0xF the final VF is 2 if
it was at least 128 and 0 otherwise, the flag being written first by decision D13 of the spec (R121; log entry 8). -/
def Obligations.ShiftLeft : Prop :=
  ∀ (x y : RegId) (s : State), ∃ t, exec (.shl x y) s = .next t ∧ t.pc = s.pc + 2 ∧
    KeepsAllBut (fun p => p = .reg x ∨ p = .reg 15) s t ∧
    (x ≠ 15 → (t.getV x).toNat = 2 * (s.getV x).toNat % 256 ∧ (t.getV 15).toNat = (s.getV x).toNat / 128) ∧
    (x = 15 → (t.getV 15).toNat = if 128 ≤ (s.getV 15).toNat then 2 else 0)

/-- CXNN: the next free byte AND NN, so no bit outside NN is set; one draw is counted (R122, decision D11; the counter
is the model's own, log entry 2). -/
def Obligations.RndMasksTheDraw : Prop :=
  ∀ (x : RegId) (nn : Byte) (s : State), ∃ t, exec (.rnd x nn) s = .next t ∧
    t.getV x = Config.draw8 s.drawIndex &&& nn ∧ t.getV x &&& ~~~nn = 0 ∧
    t.drawIndex = s.drawIndex + 1 ∧ t.pc = s.pc + 2 ∧
    KeepsAllBut (fun p => p = .reg x ∨ p = .draws) s t

/-! ## Index register and memory -/

/-- ANNN: I = NNN; FX29: I = V[X] * 5, not masked; only I and PC change (R131, R133). -/
def Obligations.LoadIndex : Prop :=
  ∀ (x : RegId) (nnn : Imm12) (s : State),
    (∃ t, exec (.ldI nnn) s = .next t ∧ t.index.toNat = nnn.toNat ∧ t.pc = s.pc + 2 ∧
      KeepsAllBut (fun p => p = .index) s t) ∧
    (∃ t, exec (.ldF x) s = .next t ∧ t.index.toNat = (s.getV x).toNat * 5 ∧ t.pc = s.pc + 2 ∧
      KeepsAllBut (fun p => p = .index) s t)

/-- FX1E: VF = 1 if I + V[X] exceeds 0xFFF, else 0; I is the sum modulo 2^16; with X = 0xF the new VF is what is
added, the flag being written first (R132; decisions D13, log entry 8, and D30). -/
def Obligations.AddToIndex : Prop :=
  ∀ (x : RegId) (s : State), ∃ t, exec (.addI x) s = .next t ∧ t.pc = s.pc + 2 ∧
    KeepsAllBut (fun p => p = .index ∨ p = .reg 15) s t ∧
    (t.getV 15).toNat = (if 0xFFF < s.index.toNat + (s.getV x).toNat then 1 else 0) ∧
    (x ≠ 15 → t.index.toNat = (s.index.toNat + (s.getV x).toNat) % 65536) ∧
    (x = 15 → t.index.toNat =
      (s.index.toNat + if 0xFFF < s.index.toNat + (s.getV 15).toNat then 1 else 0) % 65536)

/-- FX33 within memory stores the hundreds, tens and ones of V[X] at I, I + 1, I + 2 and changes nothing else, I
included (R134; integer division is decision D31). -/
def Obligations.StoreDecimalDigits : Prop :=
  ∀ (x : RegId) (s : State), s.index.toNat + 2 ≤ 0xFFF →
    ∃ t, exec (.ldB x) s = .next t ∧
      (t.readByte s.index.toNat).toNat = (s.getV x).toNat / 100 ∧
      (t.readByte (s.index.toNat + 1)).toNat = (s.getV x).toNat / 10 % 10 ∧
      (t.readByte (s.index.toNat + 2)).toNat = (s.getV x).toNat % 10 ∧
      t.pc = s.pc + 2 ∧
      KeepsAllBut (fun p => ∃ a, p = .byte a ∧ s.index.toNat ≤ a ∧ a ≤ s.index.toNat + 2) s t

/-- FX55 within memory stores V[0..X] at I..I+X, adds X + 1 to I modulo 2^16, and changes nothing else (R135). -/
def Obligations.StoreRegisters : Prop :=
  ∀ (x : RegId) (s : State), s.index.toNat + x.val ≤ 0xFFF →
    ∃ t, exec (.stRegs x) s = .next t ∧
      (∀ k : RegId, k ≤ x → t.readByte (s.index.toNat + k.val) = s.getV k) ∧
      t.index.toNat = (s.index.toNat + x.val + 1) % 65536 ∧ t.pc = s.pc + 2 ∧
      KeepsAllBut (fun p => p = .index ∨ ∃ a, p = .byte a ∧ s.index.toNat ≤ a ∧ a ≤ s.index.toNat + x.val) s t

/-- FX65 within memory loads V[0..X] from I..I+X, adds X + 1 to I modulo 2^16, and changes nothing else: registers above
VX and memory keep their values (R136). -/
def Obligations.LoadRegisters : Prop :=
  ∀ (x : RegId) (s : State), s.index.toNat + x.val ≤ 0xFFF →
    ∃ t, exec (.ldRegs x) s = .next t ∧
      (∀ k : RegId, k ≤ x → t.getV k = s.readByte (s.index.toNat + k.val)) ∧
      t.index.toNat = (s.index.toNat + x.val + 1) % 65536 ∧ t.pc = s.pc + 2 ∧
      KeepsAllBut (fun p => p = .index ∨ ∃ k, p = .reg k ∧ k ≤ x) s t

/-- FX33, FX55 and FX65 whose highest address exceeds 0xFFF raise MemoryOutOfRange before any write (R134 to R136, R54;
the fault is decision D5). -/
def Obligations.AccessOutsideMemoryFaults : Prop :=
  ∀ (x : RegId) (s : State),
    (0xFFF < s.index.toNat + 2 → ∃ t, exec (.ldB x) s = .next t ∧ Raised .memoryOutOfRange s t) ∧
    (0xFFF < s.index.toNat + x.val → ∃ t, exec (.stRegs x) s = .next t ∧ Raised .memoryOutOfRange s t) ∧
    (0xFFF < s.index.toNat + x.val → ∃ t, exec (.ldRegs x) s = .next t ∧ Raised .memoryOutOfRange s t)

/-- The fetch after a store sees it, whichever of the two bytes at the new PC it covers (both, the first, the second or
none): the word fetched after FX55, and after FX33, has V[k], or digit k, where the store reached and the old byte
elsewhere (R62, R134, R135; the digits are decision D31, log entry 24). The timer phase between changes no byte and
not PC (TimerPhaseTicksAndBeeps). -/
def Obligations.StoreIsSeenByTheNextFetch : Prop :=
  ∀ (x : RegId) (s : State),
    (s.index.toNat + x.val ≤ 0xFFF → ∃ t, exec (.stRegs x) s = .next t ∧
      ∀ b : Nat → Byte, (∀ k : RegId, k ≤ x → b k.val = s.getV k) →
        t.fetchWord.toNat =
          (s.byteAfterStore s.index.toNat (x.val + 1) b (s.pc + 2).toNat).toNat * 256 +
          (s.byteAfterStore s.index.toNat (x.val + 1) b ((s.pc + 2).toNat + 1)).toNat) ∧
    (s.index.toNat + 2 ≤ 0xFFF → ∃ t, exec (.ldB x) s = .next t ∧
      ∀ b : Nat → Byte, (b 0).toNat = (s.getV x).toNat / 100 → (b 1).toNat = (s.getV x).toNat / 10 % 10 →
        (b 2).toNat = (s.getV x).toNat % 10 →
        t.fetchWord.toNat =
          (s.byteAfterStore s.index.toNat 3 b (s.pc + 2).toNat).toNat * 256 +
          (s.byteAfterStore s.index.toNat 3 b ((s.pc + 2).toNat + 1)).toNat)

/-! ## Display -/

/-- 00E0: all 2048 cells 0, drawFlag set, and nothing else changes, VF included (R141). -/
def Obligations.ClsClearsTheFrame : Prop :=
  ∀ s : State, ∃ t, exec .cls s = .next t ∧ (∀ k : Nat, k < 2048 → t.framebuffer.cell k = false) ∧
    t.drawFlag = true ∧ t.pc = s.pc + 2 ∧
    KeepsAllBut (fun p => p = .pixels ∨ p = .drawFlag) s t

/-- DXYN inside memory and inside the grid, or with N = 0: every pixel of the rectangle is XORed with the sprite bit
over it, every other pixel is unchanged; VF is 1 if some pixel went from 1 to 0, else 0; drawFlag is set
(R140, R142). That VF is 0 otherwise and that the coordinates are those on entry is decision D14; that bit 7 is the
leftmost pixel is decision D15 (log entries 9 and 10). -/
def Obligations.DrwXorsTheSprite : Prop :=
  ∀ (x y : RegId) (n : Nibble) (s : State),
    (n.toNat = 0 ∨ s.index.toNat + n.toNat - 1 ≤ 0xFFF) →
    (n.toNat = 0 ∨ (s.getV x).toNat ≤ 56 ∧ (s.getV y).toNat + n.toNat ≤ 32) →
    ∃ t, exec (.drw x y n) s = .next t ∧
      (∀ px py : Nat, px < 64 → py < 32 → t.framebuffer.pixel px py =
        (s.framebuffer.pixel px py ^^
          (decide ((s.getV y).toNat ≤ py ∧ py < (s.getV y).toNat + n.toNat ∧
            (s.getV x).toNat ≤ px ∧ px < (s.getV x).toNat + 8) &&
          (s.readByte (s.index.toNat + (py - (s.getV y).toNat))).getLsbD (7 - (px - (s.getV x).toNat))))) ∧
      ((∃ px py : Nat, px < 64 ∧ py < 32 ∧
        s.framebuffer.pixel px py = true ∧ t.framebuffer.pixel px py = false) → t.getV 15 = 1) ∧
      ((¬ ∃ px py : Nat, px < 64 ∧ py < 32 ∧
        s.framebuffer.pixel px py = true ∧ t.framebuffer.pixel px py = false) → t.getV 15 = 0) ∧
      t.drawFlag = true ∧ t.pc = s.pc + 2 ∧
      KeepsAllBut (fun p => p = .pixels ∨ p = .drawFlag ∨ p = .reg 15) s t

/-- DXYN with N ≥ 1 faults, before any write, with MemoryOutOfRange if its last byte lies above 0xFFF, and else with
DrawOutOfBounds if its rectangle is not wholly inside the grid (R142; decisions D4, D5, D25). -/
def Obligations.DrwFaultsMemoryFirst : Prop :=
  ∀ (x y : RegId) (n : Nibble) (s : State), 1 ≤ n.toNat →
    (0xFFF < s.index.toNat + n.toNat - 1 → ∃ t, exec (.drw x y n) s = .next t ∧ Raised .memoryOutOfRange s t) ∧
    (s.index.toNat + n.toNat - 1 ≤ 0xFFF → (56 < (s.getV x).toNat ∨ 32 < (s.getV y).toNat + n.toNat) →
      ∃ t, exec (.drw x y n) s = .next t ∧ Raised .drawOutOfBounds s t)

/-- Double draw: where a DXYN completed from `s` to `t`, the same DXYN on the same frame with the same coordinates, I
and sprite bytes gives back the frame of `s`; VF is 1 after the first exactly when it turned some pixel off, and after
the second exactly when the first turned some pixel on (R143). -/
def Obligations.DoubleDrawRestoresTheFrame : Prop :=
  ∀ (x y : RegId) (n : Nibble) (s t u : State),
    s.fault = none → exec (.drw x y n) s = .next t → t.fault = none →
    u.framebuffer = t.framebuffer → u.getV x = s.getV x → u.getV y = s.getV y → u.index = s.index →
    (∀ k : Nat, k < n.toNat → u.readByte (s.index.toNat + k) = s.readByte (s.index.toNat + k)) →
    ∃ w, exec (.drw x y n) u = .next w ∧
      (∀ px py : Nat, px < 64 → py < 32 → w.framebuffer.pixel px py = s.framebuffer.pixel px py) ∧
      (t.getV 15 = 1 ↔ ∃ px py : Nat, px < 64 ∧ py < 32 ∧
        s.framebuffer.pixel px py = true ∧ t.framebuffer.pixel px py = false) ∧
      (w.getV 15 = 1 ↔ ∃ px py : Nat, px < 64 ∧ py < 32 ∧
        s.framebuffer.pixel px py = false ∧ t.framebuffer.pixel px py = true)

/-! ## Keypad and timers -/

/-- EX9E and EXA1 with V[X] at most 15 skip when that key is (is not) pressed and change nothing but PC; with V[X]
above 15 they raise KeyIndexOutOfRange (R151, R152; the fault is decision D7). -/
def Obligations.SkipsOnKey : Prop :=
  ∀ (x : RegId) (s : State),
    ((s.getV x).toNat ≤ 15 →
      (∃ t, exec (.skp x) s = .next t ∧
        t.pc = (if s.keypad.getLsbD (s.getV x).toNat = true then s.pc + 4 else s.pc + 2) ∧
        KeepsAllBut (fun _ => False) s t) ∧
      (∃ t, exec (.sknp x) s = .next t ∧
        t.pc = (if s.keypad.getLsbD (s.getV x).toNat = true then s.pc + 2 else s.pc + 4) ∧
        KeepsAllBut (fun _ => False) s t)) ∧
    (15 < (s.getV x).toNat →
      (∃ t, exec (.skp x) s = .next t ∧ Raised .keyIndexOutOfRange s t) ∧
      (∃ t, exec (.sknp x) s = .next t ∧ Raised .keyIndexOutOfRange s t))

/-- FX0A with some key pressed puts the number of the lowest pressed key into V[X] and advances (R153). -/
def Obligations.AwaitKeyTakesTheLowestKey : Prop :=
  ∀ (x : RegId) (s : State) (k : Nat), k < 16 → s.keypad.getLsbD k = true →
    (∀ j : Nat, j < k → s.keypad.getLsbD j = false) →
    ∃ t, exec (.ldVxK x) s = .next t ∧ (t.getV x).toNat = k ∧ t.pc = s.pc + 2 ∧
      KeepsAllBut (fun p => p = .reg x) s t

/-- A step at FX0A with no key pressed changes nothing: not PC, not the timers, and sends no event
(R153; that the timers stand still is conflict C2 as decision D10 settles it, log entry 7). -/
def Obligations.WaitingStepChangesNothing : Prop :=
  ∀ (x : RegId) (s : State), s.fault = none → s.pc.toNat ≤ 0xFFE → decode s.fetchWord = .ok (.ldVxK x) →
    s.keypad = 0 → step s = .next s

/-- FX07 reads DT into V[X]; FX15 and FX18 write V[X] to DT and ST; nothing but that and PC changes before the timer
phase (R154 to R156). -/
def Obligations.TimerTransfers : Prop :=
  ∀ (x : RegId) (s : State),
    (∃ t, exec (.ldVxDT x) s = .next t ∧ t.getV x = s.delayTimer ∧ t.pc = s.pc + 2 ∧
      KeepsAllBut (fun p => p = .reg x) s t) ∧
    (∃ t, exec (.ldDTVx x) s = .next t ∧ t.delayTimer = s.getV x ∧ t.pc = s.pc + 2 ∧
      KeepsAllBut (fun p => p = .delayTimer) s t) ∧
    (∃ t, exec (.ldSTVx x) s = .next t ∧ t.soundTimer = s.getV x ∧ t.pc = s.pc + 2 ∧
      KeepsAllBut (fun p => p = .soundTimer) s t)

/-- The timer phase of the same step ticks what the instruction wrote or read: after the step of FX15, DT = V[X] - 1 (0
for 0); after that of FX18, ST likewise, with Beep in this step exactly when V[X] = 1; after that of FX07, V[X] is the
DT from before the tick (R150, R154 to R156). -/
def Obligations.TimerWritesTickInTheirOwnStep : Prop :=
  ∀ (x : RegId) (s : State), s.fault = none → s.pc.toNat ≤ 0xFFE →
    (decode s.fetchWord = .ok (.ldDTVx x) → ∃ t, step s = .next t ∧
      t.delayTimer.toNat = (s.getV x).toNat - 1) ∧
    (decode s.fetchWord = .ok (.ldSTVx x) → ∃ t, step s = .next t ∧
      t.soundTimer.toNat = (s.getV x).toNat - 1 ∧
      t.trace = s.trace ++ (if (s.getV x).toNat = 1 then [.beep] else [])) ∧
    (decode s.fetchWord = .ok (.ldVxDT x) → ∃ t, step s = .next t ∧
      t.getV x = s.delayTimer ∧ t.delayTimer.toNat = s.delayTimer.toNat - 1)
end

