-- ==== Sys2Proof/Laws/State.lean ====
section
/-! SUPPORT. One lemma per field per update of the state, each true by rfl, so that no later proof unfolds a record
update; and the same for the two readings getV and readByte. -/

namespace Sys2Proof.Machine

/-! writeByte -/

@[simp] theorem State.writeByte_v (s : State) (a : Nat) (b : Byte) : (s.writeByte a b).v = s.v := rfl
@[simp] theorem State.writeByte_index (s : State) (a : Nat) (b : Byte) : (s.writeByte a b).index = s.index := rfl
@[simp] theorem State.writeByte_pc (s : State) (a : Nat) (b : Byte) : (s.writeByte a b).pc = s.pc := rfl
@[simp] theorem State.writeByte_stack (s : State) (a : Nat) (b : Byte) : (s.writeByte a b).stack = s.stack := rfl
@[simp] theorem State.writeByte_sp (s : State) (a : Nat) (b : Byte) : (s.writeByte a b).sp = s.sp := rfl
@[simp] theorem State.writeByte_delayTimer (s : State) (a : Nat) (b : Byte) : (s.writeByte a b).delayTimer = s.delayTimer := rfl
@[simp] theorem State.writeByte_soundTimer (s : State) (a : Nat) (b : Byte) : (s.writeByte a b).soundTimer = s.soundTimer := rfl
@[simp] theorem State.writeByte_mem (s : State) (a : Nat) (b : Byte) : (s.writeByte a b).mem = s.mem.write a b := rfl
@[simp] theorem State.writeByte_framebuffer (s : State) (a : Nat) (b : Byte) : (s.writeByte a b).framebuffer = s.framebuffer := rfl
@[simp] theorem State.writeByte_drawFlag (s : State) (a : Nat) (b : Byte) : (s.writeByte a b).drawFlag = s.drawFlag := rfl
@[simp] theorem State.writeByte_fault (s : State) (a : Nat) (b : Byte) : (s.writeByte a b).fault = s.fault := rfl
@[simp] theorem State.writeByte_keypad (s : State) (a : Nat) (b : Byte) : (s.writeByte a b).keypad = s.keypad := rfl
@[simp] theorem State.writeByte_trace (s : State) (a : Nat) (b : Byte) : (s.writeByte a b).trace = s.trace := rfl
@[simp] theorem State.writeByte_drawIndex (s : State) (a : Nat) (b : Byte) : (s.writeByte a b).drawIndex = s.drawIndex := rfl
@[simp] theorem State.writeByte_getV (s : State) (a : Nat) (b : Byte) (r : RegId) : (s.writeByte a b).getV r = s.getV r := rfl

/-! setV -/

@[simp] theorem State.setV_v (s : State) (x : RegId) (b : Byte) : (s.setV x b).v = s.v.set x b := rfl
@[simp] theorem State.setV_index (s : State) (x : RegId) (b : Byte) : (s.setV x b).index = s.index := rfl
@[simp] theorem State.setV_pc (s : State) (x : RegId) (b : Byte) : (s.setV x b).pc = s.pc := rfl
@[simp] theorem State.setV_stack (s : State) (x : RegId) (b : Byte) : (s.setV x b).stack = s.stack := rfl
@[simp] theorem State.setV_sp (s : State) (x : RegId) (b : Byte) : (s.setV x b).sp = s.sp := rfl
@[simp] theorem State.setV_delayTimer (s : State) (x : RegId) (b : Byte) : (s.setV x b).delayTimer = s.delayTimer := rfl
@[simp] theorem State.setV_soundTimer (s : State) (x : RegId) (b : Byte) : (s.setV x b).soundTimer = s.soundTimer := rfl
@[simp] theorem State.setV_mem (s : State) (x : RegId) (b : Byte) : (s.setV x b).mem = s.mem := rfl
@[simp] theorem State.setV_framebuffer (s : State) (x : RegId) (b : Byte) : (s.setV x b).framebuffer = s.framebuffer := rfl
@[simp] theorem State.setV_drawFlag (s : State) (x : RegId) (b : Byte) : (s.setV x b).drawFlag = s.drawFlag := rfl
@[simp] theorem State.setV_fault (s : State) (x : RegId) (b : Byte) : (s.setV x b).fault = s.fault := rfl
@[simp] theorem State.setV_keypad (s : State) (x : RegId) (b : Byte) : (s.setV x b).keypad = s.keypad := rfl
@[simp] theorem State.setV_trace (s : State) (x : RegId) (b : Byte) : (s.setV x b).trace = s.trace := rfl
@[simp] theorem State.setV_drawIndex (s : State) (x : RegId) (b : Byte) : (s.setV x b).drawIndex = s.drawIndex := rfl
@[simp] theorem State.setV_readByte (s : State) (x : RegId) (b : Byte) (i : Nat) : (s.setV x b).readByte i = s.readByte i := rfl

/-! setIndex -/

@[simp] theorem State.setIndex_v (s : State) (w : Word) : (s.setIndex w).v = s.v := rfl
@[simp] theorem State.setIndex_index (s : State) (w : Word) : (s.setIndex w).index = w := rfl
@[simp] theorem State.setIndex_pc (s : State) (w : Word) : (s.setIndex w).pc = s.pc := rfl
@[simp] theorem State.setIndex_stack (s : State) (w : Word) : (s.setIndex w).stack = s.stack := rfl
@[simp] theorem State.setIndex_sp (s : State) (w : Word) : (s.setIndex w).sp = s.sp := rfl
@[simp] theorem State.setIndex_delayTimer (s : State) (w : Word) : (s.setIndex w).delayTimer = s.delayTimer := rfl
@[simp] theorem State.setIndex_soundTimer (s : State) (w : Word) : (s.setIndex w).soundTimer = s.soundTimer := rfl
@[simp] theorem State.setIndex_mem (s : State) (w : Word) : (s.setIndex w).mem = s.mem := rfl
@[simp] theorem State.setIndex_framebuffer (s : State) (w : Word) : (s.setIndex w).framebuffer = s.framebuffer := rfl
@[simp] theorem State.setIndex_drawFlag (s : State) (w : Word) : (s.setIndex w).drawFlag = s.drawFlag := rfl
@[simp] theorem State.setIndex_fault (s : State) (w : Word) : (s.setIndex w).fault = s.fault := rfl
@[simp] theorem State.setIndex_keypad (s : State) (w : Word) : (s.setIndex w).keypad = s.keypad := rfl
@[simp] theorem State.setIndex_trace (s : State) (w : Word) : (s.setIndex w).trace = s.trace := rfl
@[simp] theorem State.setIndex_drawIndex (s : State) (w : Word) : (s.setIndex w).drawIndex = s.drawIndex := rfl
@[simp] theorem State.setIndex_getV (s : State) (w : Word) (r : RegId) : (s.setIndex w).getV r = s.getV r := rfl
@[simp] theorem State.setIndex_readByte (s : State) (w : Word) (i : Nat) : (s.setIndex w).readByte i = s.readByte i := rfl

/-! jumpTo -/

@[simp] theorem State.jumpTo_v (s : State) (w : Word) : (s.jumpTo w).v = s.v := rfl
@[simp] theorem State.jumpTo_index (s : State) (w : Word) : (s.jumpTo w).index = s.index := rfl
@[simp] theorem State.jumpTo_pc (s : State) (w : Word) : (s.jumpTo w).pc = w := rfl
@[simp] theorem State.jumpTo_stack (s : State) (w : Word) : (s.jumpTo w).stack = s.stack := rfl
@[simp] theorem State.jumpTo_sp (s : State) (w : Word) : (s.jumpTo w).sp = s.sp := rfl
@[simp] theorem State.jumpTo_delayTimer (s : State) (w : Word) : (s.jumpTo w).delayTimer = s.delayTimer := rfl
@[simp] theorem State.jumpTo_soundTimer (s : State) (w : Word) : (s.jumpTo w).soundTimer = s.soundTimer := rfl
@[simp] theorem State.jumpTo_mem (s : State) (w : Word) : (s.jumpTo w).mem = s.mem := rfl
@[simp] theorem State.jumpTo_framebuffer (s : State) (w : Word) : (s.jumpTo w).framebuffer = s.framebuffer := rfl
@[simp] theorem State.jumpTo_drawFlag (s : State) (w : Word) : (s.jumpTo w).drawFlag = s.drawFlag := rfl
@[simp] theorem State.jumpTo_fault (s : State) (w : Word) : (s.jumpTo w).fault = s.fault := rfl
@[simp] theorem State.jumpTo_keypad (s : State) (w : Word) : (s.jumpTo w).keypad = s.keypad := rfl
@[simp] theorem State.jumpTo_trace (s : State) (w : Word) : (s.jumpTo w).trace = s.trace := rfl
@[simp] theorem State.jumpTo_drawIndex (s : State) (w : Word) : (s.jumpTo w).drawIndex = s.drawIndex := rfl
@[simp] theorem State.jumpTo_getV (s : State) (w : Word) (r : RegId) : (s.jumpTo w).getV r = s.getV r := rfl
@[simp] theorem State.jumpTo_readByte (s : State) (w : Word) (i : Nat) : (s.jumpTo w).readByte i = s.readByte i := rfl

/-! advance -/

@[simp] theorem State.advance_v (s : State) : s.advance.v = s.v := rfl
@[simp] theorem State.advance_index (s : State) : s.advance.index = s.index := rfl
@[simp] theorem State.advance_pc (s : State) : s.advance.pc = s.pc + 2 := rfl
@[simp] theorem State.advance_stack (s : State) : s.advance.stack = s.stack := rfl
@[simp] theorem State.advance_sp (s : State) : s.advance.sp = s.sp := rfl
@[simp] theorem State.advance_delayTimer (s : State) : s.advance.delayTimer = s.delayTimer := rfl
@[simp] theorem State.advance_soundTimer (s : State) : s.advance.soundTimer = s.soundTimer := rfl
@[simp] theorem State.advance_mem (s : State) : s.advance.mem = s.mem := rfl
@[simp] theorem State.advance_framebuffer (s : State) : s.advance.framebuffer = s.framebuffer := rfl
@[simp] theorem State.advance_drawFlag (s : State) : s.advance.drawFlag = s.drawFlag := rfl
@[simp] theorem State.advance_fault (s : State) : s.advance.fault = s.fault := rfl
@[simp] theorem State.advance_keypad (s : State) : s.advance.keypad = s.keypad := rfl
@[simp] theorem State.advance_trace (s : State) : s.advance.trace = s.trace := rfl
@[simp] theorem State.advance_drawIndex (s : State) : s.advance.drawIndex = s.drawIndex := rfl
@[simp] theorem State.advance_getV (s : State) (r : RegId) : s.advance.getV r = s.getV r := rfl
@[simp] theorem State.advance_readByte (s : State) (i : Nat) : s.advance.readByte i = s.readByte i := rfl

/-! skipIf -/

@[simp] theorem State.skipIf_v (s : State) (c : Bool) : (s.skipIf c).v = s.v := rfl
@[simp] theorem State.skipIf_index (s : State) (c : Bool) : (s.skipIf c).index = s.index := rfl
@[simp] theorem State.skipIf_pc (s : State) (c : Bool) : (s.skipIf c).pc = s.pc + if c then 4 else 2 := rfl
@[simp] theorem State.skipIf_stack (s : State) (c : Bool) : (s.skipIf c).stack = s.stack := rfl
@[simp] theorem State.skipIf_sp (s : State) (c : Bool) : (s.skipIf c).sp = s.sp := rfl
@[simp] theorem State.skipIf_delayTimer (s : State) (c : Bool) : (s.skipIf c).delayTimer = s.delayTimer := rfl
@[simp] theorem State.skipIf_soundTimer (s : State) (c : Bool) : (s.skipIf c).soundTimer = s.soundTimer := rfl
@[simp] theorem State.skipIf_mem (s : State) (c : Bool) : (s.skipIf c).mem = s.mem := rfl
@[simp] theorem State.skipIf_framebuffer (s : State) (c : Bool) : (s.skipIf c).framebuffer = s.framebuffer := rfl
@[simp] theorem State.skipIf_drawFlag (s : State) (c : Bool) : (s.skipIf c).drawFlag = s.drawFlag := rfl
@[simp] theorem State.skipIf_fault (s : State) (c : Bool) : (s.skipIf c).fault = s.fault := rfl
@[simp] theorem State.skipIf_keypad (s : State) (c : Bool) : (s.skipIf c).keypad = s.keypad := rfl
@[simp] theorem State.skipIf_trace (s : State) (c : Bool) : (s.skipIf c).trace = s.trace := rfl
@[simp] theorem State.skipIf_drawIndex (s : State) (c : Bool) : (s.skipIf c).drawIndex = s.drawIndex := rfl
@[simp] theorem State.skipIf_getV (s : State) (c : Bool) (r : RegId) : (s.skipIf c).getV r = s.getV r := rfl
@[simp] theorem State.skipIf_readByte (s : State) (c : Bool) (i : Nat) : (s.skipIf c).readByte i = s.readByte i := rfl

/-! setDelay -/

@[simp] theorem State.setDelay_v (s : State) (b : Byte) : (s.setDelay b).v = s.v := rfl
@[simp] theorem State.setDelay_index (s : State) (b : Byte) : (s.setDelay b).index = s.index := rfl
@[simp] theorem State.setDelay_pc (s : State) (b : Byte) : (s.setDelay b).pc = s.pc := rfl
@[simp] theorem State.setDelay_stack (s : State) (b : Byte) : (s.setDelay b).stack = s.stack := rfl
@[simp] theorem State.setDelay_sp (s : State) (b : Byte) : (s.setDelay b).sp = s.sp := rfl
@[simp] theorem State.setDelay_delayTimer (s : State) (b : Byte) : (s.setDelay b).delayTimer = b := rfl
@[simp] theorem State.setDelay_soundTimer (s : State) (b : Byte) : (s.setDelay b).soundTimer = s.soundTimer := rfl
@[simp] theorem State.setDelay_mem (s : State) (b : Byte) : (s.setDelay b).mem = s.mem := rfl
@[simp] theorem State.setDelay_framebuffer (s : State) (b : Byte) : (s.setDelay b).framebuffer = s.framebuffer := rfl
@[simp] theorem State.setDelay_drawFlag (s : State) (b : Byte) : (s.setDelay b).drawFlag = s.drawFlag := rfl
@[simp] theorem State.setDelay_fault (s : State) (b : Byte) : (s.setDelay b).fault = s.fault := rfl
@[simp] theorem State.setDelay_keypad (s : State) (b : Byte) : (s.setDelay b).keypad = s.keypad := rfl
@[simp] theorem State.setDelay_trace (s : State) (b : Byte) : (s.setDelay b).trace = s.trace := rfl
@[simp] theorem State.setDelay_drawIndex (s : State) (b : Byte) : (s.setDelay b).drawIndex = s.drawIndex := rfl
@[simp] theorem State.setDelay_getV (s : State) (b : Byte) (r : RegId) : (s.setDelay b).getV r = s.getV r := rfl
@[simp] theorem State.setDelay_readByte (s : State) (b : Byte) (i : Nat) : (s.setDelay b).readByte i = s.readByte i := rfl

/-! setSound -/

@[simp] theorem State.setSound_v (s : State) (b : Byte) : (s.setSound b).v = s.v := rfl
@[simp] theorem State.setSound_index (s : State) (b : Byte) : (s.setSound b).index = s.index := rfl
@[simp] theorem State.setSound_pc (s : State) (b : Byte) : (s.setSound b).pc = s.pc := rfl
@[simp] theorem State.setSound_stack (s : State) (b : Byte) : (s.setSound b).stack = s.stack := rfl
@[simp] theorem State.setSound_sp (s : State) (b : Byte) : (s.setSound b).sp = s.sp := rfl
@[simp] theorem State.setSound_delayTimer (s : State) (b : Byte) : (s.setSound b).delayTimer = s.delayTimer := rfl
@[simp] theorem State.setSound_soundTimer (s : State) (b : Byte) : (s.setSound b).soundTimer = b := rfl
@[simp] theorem State.setSound_mem (s : State) (b : Byte) : (s.setSound b).mem = s.mem := rfl
@[simp] theorem State.setSound_framebuffer (s : State) (b : Byte) : (s.setSound b).framebuffer = s.framebuffer := rfl
@[simp] theorem State.setSound_drawFlag (s : State) (b : Byte) : (s.setSound b).drawFlag = s.drawFlag := rfl
@[simp] theorem State.setSound_fault (s : State) (b : Byte) : (s.setSound b).fault = s.fault := rfl
@[simp] theorem State.setSound_keypad (s : State) (b : Byte) : (s.setSound b).keypad = s.keypad := rfl
@[simp] theorem State.setSound_trace (s : State) (b : Byte) : (s.setSound b).trace = s.trace := rfl
@[simp] theorem State.setSound_drawIndex (s : State) (b : Byte) : (s.setSound b).drawIndex = s.drawIndex := rfl
@[simp] theorem State.setSound_getV (s : State) (b : Byte) (r : RegId) : (s.setSound b).getV r = s.getV r := rfl
@[simp] theorem State.setSound_readByte (s : State) (b : Byte) (i : Nat) : (s.setSound b).readByte i = s.readByte i := rfl

/-! loadRegs -/

@[simp] theorem State.loadRegs_index (s : State) (a : Nat) (x : RegId) : (s.loadRegs a x).index = s.index := rfl
@[simp] theorem State.loadRegs_pc (s : State) (a : Nat) (x : RegId) : (s.loadRegs a x).pc = s.pc := rfl
@[simp] theorem State.loadRegs_stack (s : State) (a : Nat) (x : RegId) : (s.loadRegs a x).stack = s.stack := rfl
@[simp] theorem State.loadRegs_sp (s : State) (a : Nat) (x : RegId) : (s.loadRegs a x).sp = s.sp := rfl
@[simp] theorem State.loadRegs_delayTimer (s : State) (a : Nat) (x : RegId) : (s.loadRegs a x).delayTimer = s.delayTimer := rfl
@[simp] theorem State.loadRegs_soundTimer (s : State) (a : Nat) (x : RegId) : (s.loadRegs a x).soundTimer = s.soundTimer := rfl
@[simp] theorem State.loadRegs_mem (s : State) (a : Nat) (x : RegId) : (s.loadRegs a x).mem = s.mem := rfl
@[simp] theorem State.loadRegs_framebuffer (s : State) (a : Nat) (x : RegId) : (s.loadRegs a x).framebuffer = s.framebuffer := rfl
@[simp] theorem State.loadRegs_drawFlag (s : State) (a : Nat) (x : RegId) : (s.loadRegs a x).drawFlag = s.drawFlag := rfl
@[simp] theorem State.loadRegs_fault (s : State) (a : Nat) (x : RegId) : (s.loadRegs a x).fault = s.fault := rfl
@[simp] theorem State.loadRegs_keypad (s : State) (a : Nat) (x : RegId) : (s.loadRegs a x).keypad = s.keypad := rfl
@[simp] theorem State.loadRegs_trace (s : State) (a : Nat) (x : RegId) : (s.loadRegs a x).trace = s.trace := rfl
@[simp] theorem State.loadRegs_drawIndex (s : State) (a : Nat) (x : RegId) : (s.loadRegs a x).drawIndex = s.drawIndex := rfl
@[simp] theorem State.loadRegs_readByte (s : State) (a : Nat) (x : RegId) (i : Nat) : (s.loadRegs a x).readByte i = s.readByte i := rfl

/-! setFrame -/

@[simp] theorem State.setFrame_v (s : State) (f : Frame) : (s.setFrame f).v = s.v := rfl
@[simp] theorem State.setFrame_index (s : State) (f : Frame) : (s.setFrame f).index = s.index := rfl
@[simp] theorem State.setFrame_pc (s : State) (f : Frame) : (s.setFrame f).pc = s.pc := rfl
@[simp] theorem State.setFrame_stack (s : State) (f : Frame) : (s.setFrame f).stack = s.stack := rfl
@[simp] theorem State.setFrame_sp (s : State) (f : Frame) : (s.setFrame f).sp = s.sp := rfl
@[simp] theorem State.setFrame_delayTimer (s : State) (f : Frame) : (s.setFrame f).delayTimer = s.delayTimer := rfl
@[simp] theorem State.setFrame_soundTimer (s : State) (f : Frame) : (s.setFrame f).soundTimer = s.soundTimer := rfl
@[simp] theorem State.setFrame_mem (s : State) (f : Frame) : (s.setFrame f).mem = s.mem := rfl
@[simp] theorem State.setFrame_framebuffer (s : State) (f : Frame) : (s.setFrame f).framebuffer = f := rfl
@[simp] theorem State.setFrame_drawFlag (s : State) (f : Frame) : (s.setFrame f).drawFlag = true := rfl
@[simp] theorem State.setFrame_fault (s : State) (f : Frame) : (s.setFrame f).fault = s.fault := rfl
@[simp] theorem State.setFrame_keypad (s : State) (f : Frame) : (s.setFrame f).keypad = s.keypad := rfl
@[simp] theorem State.setFrame_trace (s : State) (f : Frame) : (s.setFrame f).trace = s.trace := rfl
@[simp] theorem State.setFrame_drawIndex (s : State) (f : Frame) : (s.setFrame f).drawIndex = s.drawIndex := rfl
@[simp] theorem State.setFrame_getV (s : State) (f : Frame) (r : RegId) : (s.setFrame f).getV r = s.getV r := rfl
@[simp] theorem State.setFrame_readByte (s : State) (f : Frame) (i : Nat) : (s.setFrame f).readByte i = s.readByte i := rfl

/-! emit -/

@[simp] theorem State.emit_v (s : State) (e : Event) : (s.emit e).v = s.v := rfl
@[simp] theorem State.emit_index (s : State) (e : Event) : (s.emit e).index = s.index := rfl
@[simp] theorem State.emit_pc (s : State) (e : Event) : (s.emit e).pc = s.pc := rfl
@[simp] theorem State.emit_stack (s : State) (e : Event) : (s.emit e).stack = s.stack := rfl
@[simp] theorem State.emit_sp (s : State) (e : Event) : (s.emit e).sp = s.sp := rfl
@[simp] theorem State.emit_delayTimer (s : State) (e : Event) : (s.emit e).delayTimer = s.delayTimer := rfl
@[simp] theorem State.emit_soundTimer (s : State) (e : Event) : (s.emit e).soundTimer = s.soundTimer := rfl
@[simp] theorem State.emit_mem (s : State) (e : Event) : (s.emit e).mem = s.mem := rfl
@[simp] theorem State.emit_framebuffer (s : State) (e : Event) : (s.emit e).framebuffer = s.framebuffer := rfl
@[simp] theorem State.emit_drawFlag (s : State) (e : Event) : (s.emit e).drawFlag = s.drawFlag := rfl
@[simp] theorem State.emit_fault (s : State) (e : Event) : (s.emit e).fault = s.fault := rfl
@[simp] theorem State.emit_keypad (s : State) (e : Event) : (s.emit e).keypad = s.keypad := rfl
@[simp] theorem State.emit_trace (s : State) (e : Event) : (s.emit e).trace = s.trace ++ [e] := rfl
@[simp] theorem State.emit_drawIndex (s : State) (e : Event) : (s.emit e).drawIndex = s.drawIndex := rfl
@[simp] theorem State.emit_getV (s : State) (e : Event) (r : RegId) : (s.emit e).getV r = s.getV r := rfl
@[simp] theorem State.emit_readByte (s : State) (e : Event) (i : Nat) : (s.emit e).readByte i = s.readByte i := rfl

/-! countDraw -/

@[simp] theorem State.countDraw_v (s : State) : s.countDraw.v = s.v := rfl
@[simp] theorem State.countDraw_index (s : State) : s.countDraw.index = s.index := rfl
@[simp] theorem State.countDraw_pc (s : State) : s.countDraw.pc = s.pc := rfl
@[simp] theorem State.countDraw_stack (s : State) : s.countDraw.stack = s.stack := rfl
@[simp] theorem State.countDraw_sp (s : State) : s.countDraw.sp = s.sp := rfl
@[simp] theorem State.countDraw_delayTimer (s : State) : s.countDraw.delayTimer = s.delayTimer := rfl
@[simp] theorem State.countDraw_soundTimer (s : State) : s.countDraw.soundTimer = s.soundTimer := rfl
@[simp] theorem State.countDraw_mem (s : State) : s.countDraw.mem = s.mem := rfl
@[simp] theorem State.countDraw_framebuffer (s : State) : s.countDraw.framebuffer = s.framebuffer := rfl
@[simp] theorem State.countDraw_drawFlag (s : State) : s.countDraw.drawFlag = s.drawFlag := rfl
@[simp] theorem State.countDraw_fault (s : State) : s.countDraw.fault = s.fault := rfl
@[simp] theorem State.countDraw_keypad (s : State) : s.countDraw.keypad = s.keypad := rfl
@[simp] theorem State.countDraw_trace (s : State) : s.countDraw.trace = s.trace := rfl
@[simp] theorem State.countDraw_drawIndex (s : State) : s.countDraw.drawIndex = s.drawIndex + 1 := rfl
@[simp] theorem State.countDraw_getV (s : State) (r : RegId) : s.countDraw.getV r = s.getV r := rfl
@[simp] theorem State.countDraw_readByte (s : State) (i : Nat) : s.countDraw.readByte i = s.readByte i := rfl

/-! raise -/

@[simp] theorem State.raise_v (s : State) (c : MachineFault) : (s.raise c).v = s.v := rfl
@[simp] theorem State.raise_index (s : State) (c : MachineFault) : (s.raise c).index = s.index := rfl
@[simp] theorem State.raise_pc (s : State) (c : MachineFault) : (s.raise c).pc = s.pc := rfl
@[simp] theorem State.raise_stack (s : State) (c : MachineFault) : (s.raise c).stack = s.stack := rfl
@[simp] theorem State.raise_sp (s : State) (c : MachineFault) : (s.raise c).sp = s.sp := rfl
@[simp] theorem State.raise_delayTimer (s : State) (c : MachineFault) : (s.raise c).delayTimer = s.delayTimer := rfl
@[simp] theorem State.raise_soundTimer (s : State) (c : MachineFault) : (s.raise c).soundTimer = s.soundTimer := rfl
@[simp] theorem State.raise_mem (s : State) (c : MachineFault) : (s.raise c).mem = s.mem := rfl
@[simp] theorem State.raise_framebuffer (s : State) (c : MachineFault) : (s.raise c).framebuffer = s.framebuffer := rfl
@[simp] theorem State.raise_drawFlag (s : State) (c : MachineFault) : (s.raise c).drawFlag = s.drawFlag := rfl
@[simp] theorem State.raise_fault (s : State) (c : MachineFault) : (s.raise c).fault = some c := rfl
@[simp] theorem State.raise_keypad (s : State) (c : MachineFault) : (s.raise c).keypad = s.keypad := rfl
@[simp] theorem State.raise_trace (s : State) (c : MachineFault) : (s.raise c).trace = s.trace := rfl
@[simp] theorem State.raise_drawIndex (s : State) (c : MachineFault) : (s.raise c).drawIndex = s.drawIndex := rfl
@[simp] theorem State.raise_getV (s : State) (c : MachineFault) (r : RegId) : (s.raise c).getV r = s.getV r := rfl
@[simp] theorem State.raise_readByte (s : State) (c : MachineFault) (i : Nat) : (s.raise c).readByte i = s.readByte i := rfl

/-! setKeys -/

@[simp] theorem State.setKeys_v (s : State) (k : BitVec 16) : (s.setKeys k).v = s.v := rfl
@[simp] theorem State.setKeys_index (s : State) (k : BitVec 16) : (s.setKeys k).index = s.index := rfl
@[simp] theorem State.setKeys_pc (s : State) (k : BitVec 16) : (s.setKeys k).pc = s.pc := rfl
@[simp] theorem State.setKeys_stack (s : State) (k : BitVec 16) : (s.setKeys k).stack = s.stack := rfl
@[simp] theorem State.setKeys_sp (s : State) (k : BitVec 16) : (s.setKeys k).sp = s.sp := rfl
@[simp] theorem State.setKeys_delayTimer (s : State) (k : BitVec 16) : (s.setKeys k).delayTimer = s.delayTimer := rfl
@[simp] theorem State.setKeys_soundTimer (s : State) (k : BitVec 16) : (s.setKeys k).soundTimer = s.soundTimer := rfl
@[simp] theorem State.setKeys_mem (s : State) (k : BitVec 16) : (s.setKeys k).mem = s.mem := rfl
@[simp] theorem State.setKeys_framebuffer (s : State) (k : BitVec 16) : (s.setKeys k).framebuffer = s.framebuffer := rfl
@[simp] theorem State.setKeys_drawFlag (s : State) (k : BitVec 16) : (s.setKeys k).drawFlag = s.drawFlag := rfl
@[simp] theorem State.setKeys_fault (s : State) (k : BitVec 16) : (s.setKeys k).fault = s.fault := rfl
@[simp] theorem State.setKeys_keypad (s : State) (k : BitVec 16) : (s.setKeys k).keypad = k := rfl
@[simp] theorem State.setKeys_trace (s : State) (k : BitVec 16) : (s.setKeys k).trace = s.trace := rfl
@[simp] theorem State.setKeys_drawIndex (s : State) (k : BitVec 16) : (s.setKeys k).drawIndex = s.drawIndex := rfl
@[simp] theorem State.setKeys_getV (s : State) (k : BitVec 16) (r : RegId) : (s.setKeys k).getV r = s.getV r := rfl
@[simp] theorem State.setKeys_readByte (s : State) (k : BitVec 16) (i : Nat) : (s.setKeys k).readByte i = s.readByte i := rfl

/-! drawAck -/

@[simp] theorem State.drawAck_v (s : State) : s.drawAck.v = s.v := rfl
@[simp] theorem State.drawAck_index (s : State) : s.drawAck.index = s.index := rfl
@[simp] theorem State.drawAck_pc (s : State) : s.drawAck.pc = s.pc := rfl
@[simp] theorem State.drawAck_stack (s : State) : s.drawAck.stack = s.stack := rfl
@[simp] theorem State.drawAck_sp (s : State) : s.drawAck.sp = s.sp := rfl
@[simp] theorem State.drawAck_delayTimer (s : State) : s.drawAck.delayTimer = s.delayTimer := rfl
@[simp] theorem State.drawAck_soundTimer (s : State) : s.drawAck.soundTimer = s.soundTimer := rfl
@[simp] theorem State.drawAck_mem (s : State) : s.drawAck.mem = s.mem := rfl
@[simp] theorem State.drawAck_framebuffer (s : State) : s.drawAck.framebuffer = s.framebuffer := rfl
@[simp] theorem State.drawAck_drawFlag (s : State) : s.drawAck.drawFlag = false := rfl
@[simp] theorem State.drawAck_fault (s : State) : s.drawAck.fault = s.fault := rfl
@[simp] theorem State.drawAck_keypad (s : State) : s.drawAck.keypad = s.keypad := rfl
@[simp] theorem State.drawAck_trace (s : State) : s.drawAck.trace = s.trace := rfl
@[simp] theorem State.drawAck_drawIndex (s : State) : s.drawAck.drawIndex = s.drawIndex := rfl
@[simp] theorem State.drawAck_getV (s : State) (r : RegId) : s.drawAck.getV r = s.getV r := rfl
@[simp] theorem State.drawAck_readByte (s : State) (i : Nat) : s.drawAck.readByte i = s.readByte i := rfl

/-! restart -/

@[simp] theorem State.restart_v (s : State) : s.restart.v = State.reset.v := rfl
@[simp] theorem State.restart_index (s : State) : s.restart.index = State.reset.index := rfl
@[simp] theorem State.restart_pc (s : State) : s.restart.pc = State.reset.pc := rfl
@[simp] theorem State.restart_stack (s : State) : s.restart.stack = State.reset.stack := rfl
@[simp] theorem State.restart_sp (s : State) : s.restart.sp = State.reset.sp := rfl
@[simp] theorem State.restart_delayTimer (s : State) : s.restart.delayTimer = State.reset.delayTimer := rfl
@[simp] theorem State.restart_soundTimer (s : State) : s.restart.soundTimer = State.reset.soundTimer := rfl
@[simp] theorem State.restart_mem (s : State) : s.restart.mem = State.reset.mem := rfl
@[simp] theorem State.restart_framebuffer (s : State) : s.restart.framebuffer = State.reset.framebuffer := rfl
@[simp] theorem State.restart_drawFlag (s : State) : s.restart.drawFlag = State.reset.drawFlag := rfl
@[simp] theorem State.restart_fault (s : State) : s.restart.fault = State.reset.fault := rfl
@[simp] theorem State.restart_keypad (s : State) : s.restart.keypad = s.keypad := rfl
@[simp] theorem State.restart_trace (s : State) : s.restart.trace = s.trace := rfl
@[simp] theorem State.restart_drawIndex (s : State) : s.restart.drawIndex = s.drawIndex := rfl

/-! timerPhase, reportUnknown -/

@[simp] theorem State.timerPhase_v (s : State) : s.timerPhase.v = s.v := rfl
@[simp] theorem State.timerPhase_index (s : State) : s.timerPhase.index = s.index := rfl
@[simp] theorem State.timerPhase_pc (s : State) : s.timerPhase.pc = s.pc := rfl
@[simp] theorem State.timerPhase_stack (s : State) : s.timerPhase.stack = s.stack := rfl
@[simp] theorem State.timerPhase_sp (s : State) : s.timerPhase.sp = s.sp := rfl
@[simp] theorem State.timerPhase_delayTimer (s : State) : s.timerPhase.delayTimer = tick s.delayTimer := rfl
@[simp] theorem State.timerPhase_soundTimer (s : State) : s.timerPhase.soundTimer = tick s.soundTimer := rfl
@[simp] theorem State.timerPhase_mem (s : State) : s.timerPhase.mem = s.mem := rfl
@[simp] theorem State.timerPhase_framebuffer (s : State) : s.timerPhase.framebuffer = s.framebuffer := rfl
@[simp] theorem State.timerPhase_drawFlag (s : State) : s.timerPhase.drawFlag = s.drawFlag := rfl
@[simp] theorem State.timerPhase_fault (s : State) : s.timerPhase.fault = s.fault := rfl
@[simp] theorem State.timerPhase_keypad (s : State) : s.timerPhase.keypad = s.keypad := rfl
@[simp] theorem State.timerPhase_trace (s : State) : s.timerPhase.trace = if s.soundTimer = 1 then s.trace ++ [.beep] else s.trace := rfl
@[simp] theorem State.timerPhase_drawIndex (s : State) : s.timerPhase.drawIndex = s.drawIndex := rfl
@[simp] theorem State.reportUnknown_v (s : State) (op : Word) : (s.reportUnknown op).v = s.v := rfl
@[simp] theorem State.reportUnknown_index (s : State) (op : Word) : (s.reportUnknown op).index = s.index := rfl
@[simp] theorem State.reportUnknown_pc (s : State) (op : Word) : (s.reportUnknown op).pc = s.pc + 2 := rfl
@[simp] theorem State.reportUnknown_stack (s : State) (op : Word) : (s.reportUnknown op).stack = s.stack := rfl
@[simp] theorem State.reportUnknown_sp (s : State) (op : Word) : (s.reportUnknown op).sp = s.sp := rfl
@[simp] theorem State.reportUnknown_delayTimer (s : State) (op : Word) : (s.reportUnknown op).delayTimer = s.delayTimer := rfl
@[simp] theorem State.reportUnknown_soundTimer (s : State) (op : Word) : (s.reportUnknown op).soundTimer = s.soundTimer := rfl
@[simp] theorem State.reportUnknown_mem (s : State) (op : Word) : (s.reportUnknown op).mem = s.mem := rfl
@[simp] theorem State.reportUnknown_framebuffer (s : State) (op : Word) : (s.reportUnknown op).framebuffer = s.framebuffer := rfl
@[simp] theorem State.reportUnknown_drawFlag (s : State) (op : Word) : (s.reportUnknown op).drawFlag = s.drawFlag := rfl
@[simp] theorem State.reportUnknown_fault (s : State) (op : Word) : (s.reportUnknown op).fault = s.fault := rfl
@[simp] theorem State.reportUnknown_keypad (s : State) (op : Word) : (s.reportUnknown op).keypad = s.keypad := rfl
@[simp] theorem State.reportUnknown_trace (s : State) (op : Word) : (s.reportUnknown op).trace = s.trace ++ [.unknownOpcode op] := rfl
@[simp] theorem State.reportUnknown_drawIndex (s : State) (op : Word) : (s.reportUnknown op).drawIndex = s.drawIndex := rfl
@[simp] theorem State.timerPhase_getV (s : State) (r : RegId) : s.timerPhase.getV r = s.getV r := rfl
@[simp] theorem State.timerPhase_readByte (s : State) (i : Nat) : s.timerPhase.readByte i = s.readByte i := rfl
@[simp] theorem State.reportUnknown_getV (s : State) (op : Word) (r : RegId) : (s.reportUnknown op).getV r = s.getV r := rfl
@[simp] theorem State.reportUnknown_readByte (s : State) (op : Word) (i : Nat) : (s.reportUnknown op).readByte i = s.readByte i := rfl

end Sys2Proof.Machine
end

