-- ==== Sys2Proof/Laws/Memory.lean ====
section
/-! SUPPORT. Memory: what a read gives after a write, and that every operation keeps the canonical form. -/

namespace Sys2Proof.Machine

theorem Memory.read_erase (m : Memory) (a c : Nat) :
    (m.erase a).read c = if c = a then resetByte c else m.read c := by
  unfold Memory.erase
  induction m with
  | nil => simp [Memory.read]
  | cons cell m ih =>
    obtain ⟨k, b⟩ := cell
    by_cases hk : k = a
    · rw [List.filter_cons_of_neg (by simpa using hk), ih, Memory.read]
      by_cases hc : c = a
      · rw [if_pos hc, if_pos hc]
      · rw [if_neg hc, if_neg hc, if_neg fun h => hc (h.symm.trans hk)]
    · rw [List.filter_cons_of_pos (by simpa using hk), Memory.read, Memory.read, ih]
      by_cases hc : k = c
      · rw [if_pos hc, if_pos hc, if_neg fun h => hk (hc.trans h)]
      · rw [if_neg hc, if_neg hc]

theorem Memory.read_insert (m : Memory) (a : Nat) (b : Byte) (c : Nat) (fresh : ∀ cell ∈ m, cell.1 ≠ a) :
    (m.insert a b).read c = if c = a then b else m.read c := by
  induction m with
  | nil => simp [Memory.insert, Memory.read, eq_comm]
  | cons cell m ih =>
    obtain ⟨k, d⟩ := cell
    have hk : k ≠ a := fresh (k, d) (by simp)
    have ih := ih fun cell hc => fresh cell (by simp [hc])
    unfold Memory.insert
    split
    · simp [Memory.read, eq_comm]
    · simp only [Memory.read, ih]
      by_cases hc : k = c
      · simp [hc] at hk ⊢; simp [hk]
      · simp [hc]

theorem Memory.erase_fresh (m : Memory) (a : Nat) : ∀ cell ∈ m.erase a, cell.1 ≠ a := by
  intro cell h
  simpa using (List.mem_filter.mp h).2

/-- A read after a write: the byte written at its address, every other byte as before. -/
theorem Memory.read_write (m : Memory) (a : Nat) (b : Byte) (c : Nat) :
    (m.write a b).read c = if c = a then b else m.read c := by
  unfold Memory.write
  split
  · rename_i h
    rw [Memory.read_erase]
    split
    · simp_all
    · rfl
  · rw [Memory.read_insert _ _ _ _ (Memory.erase_fresh m a), Memory.read_erase]
    split <;> rfl

theorem Memory.wfFrom_mono {lo lo' : Nat} {m : Memory} (h : lo' ≤ lo) (wf : Memory.wfFrom lo m = true) :
    Memory.wfFrom lo' m = true := by
  cases m with
  | nil => rfl
  | cons cell m =>
    simp only [Memory.wfFrom, Bool.and_eq_true, decide_eq_true_eq] at wf ⊢
    exact ⟨⟨by omega, wf.1.2⟩, wf.2⟩

theorem Memory.wfFrom_erase {lo : Nat} {m : Memory} (a : Nat) (wf : Memory.wfFrom lo m = true) :
    Memory.wfFrom lo (m.erase a) = true := by
  induction m generalizing lo with
  | nil => rfl
  | cons cell m ih =>
    simp only [Memory.wfFrom, Bool.and_eq_true, decide_eq_true_eq] at wf
    simp only [Memory.erase, List.filter_cons]
    split
    · simp only [Memory.wfFrom, Bool.and_eq_true, decide_eq_true_eq]
      exact ⟨wf.1, ih wf.2⟩
    · exact Memory.wfFrom_mono (by omega) (ih wf.2)

theorem Memory.wfFrom_insert {lo : Nat} {m : Memory} {a : Nat} {b : Byte} (wf : Memory.wfFrom lo m = true)
    (hlo : lo ≤ a) (ha : a < Config.memSize) (hb : b ≠ resetByte a) (fresh : ∀ cell ∈ m, cell.1 ≠ a) :
    Memory.wfFrom lo (m.insert a b) = true := by
  induction m generalizing lo with
  | nil => simp [Memory.insert, Memory.wfFrom, hb]; exact ⟨hlo, ha⟩
  | cons cell m ih =>
    obtain ⟨k, d⟩ := cell
    have hk : k ≠ a := fresh (k, d) (by simp)
    have fresh' : ∀ cell ∈ m, cell.1 ≠ a := fun c hc => fresh c (by simp [hc])
    simp only [Memory.wfFrom, Bool.and_eq_true, decide_eq_true_eq] at wf
    unfold Memory.insert
    split
    · simp only [Memory.wfFrom, Bool.and_eq_true, decide_eq_true_eq]
      exact ⟨⟨hlo, ha, hb⟩, ⟨by omega, wf.1.2⟩, wf.2⟩
    · simp only [Memory.wfFrom, Bool.and_eq_true, decide_eq_true_eq]
      exact ⟨wf.1, ih wf.2 (by omega) fresh'⟩

/-- A write inside memory keeps the canonical form. -/
theorem Memory.write_wf {m : Memory} {a : Nat} (b : Byte) (wf : m.wf = true) (ha : a < Config.memSize) :
    (m.write a b).wf = true := by
  unfold Memory.write Memory.wf
  split
  · exact Memory.wfFrom_erase a wf
  · exact Memory.wfFrom_insert (Memory.wfFrom_erase a wf) (Nat.zero_le a) ha ‹_› (Memory.erase_fresh m a)

theorem State.reset_wf : State.reset.mem.wf = true := rfl

@[simp] theorem State.readByte_writeByte (s : State) (a : Nat) (b : Byte) (c : Nat) :
    (s.writeByte a b).readByte c = if c = a then b else s.readByte c := Memory.read_write s.mem a b c

/-- What a store of several bytes leaves at an address: the stored byte inside its range, the old one outside. -/
theorem State.readByte_writeBytes (s : State) (a : Nat) (bs : List Byte) (c : Nat) :
    (s.writeBytes a bs).readByte c =
      if a ≤ c ∧ c < a + bs.length then bs.getD (c - a) 0 else s.readByte c := by
  induction bs generalizing s a with
  | nil => simp [State.writeBytes]
  | cons b bs ih =>
    simp only [State.writeBytes, ih, State.readByte_writeByte, List.length_cons]
    by_cases h : c = a
    · subst h; simp
    · by_cases h1 : a + 1 ≤ c ∧ c < a + 1 + bs.length
      · rw [if_pos h1, if_pos (by omega)]
        obtain ⟨d, hd⟩ : ∃ d, c - a = d + 1 := ⟨c - a - 1, by omega⟩
        rw [hd, List.getD_cons_succ]; congr 1; omega
      · rw [if_neg h1, if_neg h, if_neg (by omega)]

/-- A store of several bytes changes memory only. -/
theorem State.writeBytes_eq (s : State) (a : Nat) (bs : List Byte) :
    ∃ m, s.writeBytes a bs = { s with mem := m } := by
  induction bs generalizing s a with
  | nil => exact ⟨s.mem, rfl⟩
  | cons b bs ih =>
    obtain ⟨m, hm⟩ := ih (s.writeByte a b) (a + 1)
    exact ⟨m, hm⟩

/-- A store of several bytes inside memory keeps the canonical form. -/
theorem State.writeBytes_wf {s : State} {a : Nat} {bs : List Byte} (wf : s.mem.wf = true)
    (h : bs = [] ∨ a + bs.length ≤ Config.memSize) : (s.writeBytes a bs).mem.wf = true := by
  induction bs generalizing s a with
  | nil => exact wf
  | cons b bs ih =>
    simp at h
    refine ih (Memory.write_wf b wf (by show a < 4096; omega)) ?_
    by_cases hb : bs = []
    · exact .inl hb
    · exact .inr (by simp; omega)

theorem State.readBytes_length (s : State) (a n : Nat) : (s.readBytes a n).length = n := by
  simp [State.readBytes]

theorem State.readBytes_getElem (s : State) (a n k : Nat) (h : k < (s.readBytes a n).length) :
    (s.readBytes a n)[k] = s.readByte (a + k) := by
  simp [State.readBytes]

end Sys2Proof.Machine
end

