-- ==== Sys2Proof/Laws/Registers.lean ====
section
/-! SUPPORT. Registers and the stack: what a read gives after a write, and what the shared operations over them do. -/

namespace Sys2Proof.Machine

@[simp] theorem State.getV_setV (s : State) (x : RegId) (b : Byte) (r : RegId) :
    (s.setV x b).getV r = if r = x then b else s.getV r := by
  simp only [State.getV, State.setV, Fin.getElem_fin, Vector.getElem_set]
  by_cases h : r = x
  · simp [h]
  · rw [if_neg fun hv => h (Fin.ext hv.symm), if_neg h]

@[simp] theorem State.getV_loadRegs (s : State) (a : Nat) (x r : RegId) :
    (s.loadRegs a x).getV r = if r ≤ x then s.readByte (a + r) else s.getV r := by
  simp [State.getV, State.loadRegs]

/-- The two writes of a flag-writing instruction, read back: the destination holds the result computed after the flag
was written, VF the flag unless it is the destination, every other register its old value. -/
theorem State.getV_flagThenResult (s : State) (flag : Byte) (x : RegId) (result : State → Byte) (r : RegId) :
    (s.flagThenResult flag x result).getV r =
      if r = x then result (s.setV .vf flag) else if r = .vf then flag else s.getV r := by
  simp [State.flagThenResult]

/-- The two writes of a flag-writing instruction change the V registers only. -/
theorem State.flagThenResult_eq (s : State) (flag : Byte) (x : RegId) (result : State → Byte) :
    ∃ v, s.flagThenResult flag x result = { s with v := v } := ⟨_, rfl⟩

theorem State.regsUpTo_length (s : State) (x : RegId) : (s.regsUpTo x).length = regCount x := by
  simp [State.regsUpTo, regCount]

theorem State.regsUpTo_getD (s : State) (x : RegId) (k : RegId) (h : k ≤ x) :
    (s.regsUpTo x).getD k 0 = s.getV k := by
  have hk : k.val < x.val + 1 := by have := Fin.le_def.mp h; omega
  simp [State.regsUpTo, List.getD_eq_getElem?_getD, hk, State.getV]

/-- Everything a push can do: where the slot exists it is written and SP counts it, nothing else changes. -/
theorem State.push_cases (s : State) (w : Word) :
    (∃ h : s.sp.toNat < 16, s.push w = some { s with stack := s.stack.set s.sp.toNat w, sp := s.sp + 1 }) ∨
    (16 ≤ s.sp.toNat ∧ s.push w = none) := by
  unfold State.push
  by_cases h : s.sp.toNat < 16
  · exact .inl ⟨h, dif_pos h⟩
  · exact .inr ⟨by omega, dif_neg h⟩

/-- Everything a pop can do: where the slot below SP exists its word is given and SP falls, nothing else changes. -/
theorem State.pop_cases (s : State) :
    (∃ h : (s.sp - 1).toNat < 16, s.pop = some (s.stack[(s.sp - 1).toNat], { s with sp := s.sp - 1 })) ∨
    (16 ≤ (s.sp - 1).toNat ∧ s.pop = none) := by
  unfold State.pop
  by_cases h : (s.sp - 1).toNat < 16
  · exact .inl ⟨h, dif_pos h⟩
  · exact .inr ⟨by omega, dif_neg h⟩

/-- The lowest pressed key, if it is given, is pressed and every key below it is not. -/
theorem State.lowestKey_spec {s : State} {k : Nat} (h : s.lowestKey = some k) :
    k < 16 ∧ s.keyDown k = true ∧ ∀ j < k, s.keyDown j = false := by
  unfold State.lowestKey at h
  obtain ⟨hk, as, bs, hl, hb⟩ := List.find?_eq_some_iff_append.mp h
  have hlen : as.length = k := by
    have h1 := congrArg (fun l => l[as.length]?) hl
    have hlt : as.length < 16 := by have := congrArg List.length hl; simp at this; omega
    simp [List.getElem?_range hlt] at h1
    exact h1
  have hk16 : k < 16 := by have := List.mem_range.mp (hl ▸ List.mem_append_right as (List.mem_cons_self)); omega
  refine ⟨hk16, hk, fun j hj => ?_⟩
  have hmem : j ∈ as := by
    have h1 := congrArg (fun l => l[j]?) hl
    simp only [List.getElem?_range (show j < 16 by omega)] at h1
    rw [List.getElem?_append_left (by omega)] at h1
    exact List.mem_of_getElem? h1.symm
  simpa using hb j hmem

/-- No key is given exactly when none of the 16 is pressed. -/
theorem State.lowestKey_none {s : State} : s.lowestKey = none ↔ s.keypad = 0 := by
  unfold State.lowestKey State.keyDown
  rw [List.find?_eq_none]
  constructor
  · intro h
    apply BitVec.eq_of_getLsbD_eq
    intro i hi
    simpa using h i (List.mem_range.mpr hi)
  · intro h i _
    simp [h]

end Sys2Proof.Machine
end

