-- ==== Sys2Proof/Laws/Blit.lean ====
section
/-! SUPPORT. The framebuffer and the sprite blitter: what each operation leaves in every pixel and in the collision
flag. -/

namespace Sys2Proof.Machine

@[simp] theorem Frame.pixel_blank (x y : Nat) : Frame.blank.pixel x y = false := by
  unfold Frame.pixel Frame.blank
  split <;> simp

theorem Frame.pixel_flip (f : Frame) {x y : Nat} (hx : x < 64) (hy : y < 32) (px py : Nat) :
    (f.flip x y).pixel px py = (f.pixel px py ^^ decide (px = x ∧ py = y)) := by
  unfold Frame.flip Frame.pixel
  rw [dif_pos hy]
  by_cases hpy : py < 32
  · rw [dif_pos hpy, dif_pos hpy, Vector.getElem_set]
    by_cases h : y = py
    · subst h
      simp [BitVec.getLsbD_xor, BitVec.getLsbD_twoPow, hx, eq_comm]
    · simp [h, Ne.symm h]
  · rw [dif_neg hpy, dif_neg hpy]
    simp; intro _; omega

/-- One sprite pixel: a 1 bit flips the pixel under it and reports a collision if it was on. -/
theorem blitPixel_pixel (on : Bool) {x y : Nat} (hx : x < 64) (hy : y < 32) (p : Frame × Bool) (px py : Nat) :
    (blitPixel on x y p).1.pixel px py = (p.1.pixel px py ^^ (on && decide (px = x ∧ py = y))) := by
  unfold blitPixel
  cases on <;> simp [Frame.pixel_flip p.1 hx hy]

theorem blitPixel_hit (on : Bool) (x y : Nat) (p : Frame × Bool) :
    (blitPixel on x y p).2 = (p.2 || (on && p.1.pixel x y)) := by
  unfold blitPixel
  cases on <;> simp

/-- The first `n` columns of a sprite row: each pixel is XORed with the bit over it, and a collision is reported when
some 1 bit met a pixel that was on. -/
theorem blitColumns_spec (b : Byte) (x0 y : Nat) (hy : y < 32) (p : Frame × Bool) (n : Nat) (hn : x0 + n ≤ 64) :
    let q := (List.range n).foldl (fun p col => blitPixel (spriteBit b col) (x0 + col) y p) p
    (∀ px py, q.1.pixel px py =
      (p.1.pixel px py ^^ (decide (py = y ∧ x0 ≤ px ∧ px < x0 + n) && spriteBit b (px - x0)))) ∧
    (q.2 = true ↔ p.2 = true ∨ ∃ col < n, spriteBit b col = true ∧ p.1.pixel (x0 + col) y = true) := by
  induction n with
  | zero =>
    refine ⟨fun px py => ?_, by simp⟩
    have : ¬ (py = y ∧ x0 ≤ px ∧ px < x0 + 0) := by omega
    simp only [List.range_zero, List.foldl_nil, this, decide_false, Bool.false_and, Bool.xor_false]
  | succ n ih =>
    obtain ⟨hpix, hhit⟩ := ih (by omega)
    simp only [List.range_succ, List.foldl_append, List.foldl_cons, List.foldl_nil]
    generalize (List.range n).foldl (fun p col => blitPixel (spriteBit b col) (x0 + col) y p) p = q at hpix hhit
    refine ⟨fun px py => ?_, ?_⟩
    · rw [blitPixel_pixel _ (by omega) hy, hpix]
      by_cases h : px = x0 + n ∧ py = y
      · obtain ⟨rfl, rfl⟩ := h
        simp
      · rw [decide_eq_false h]
        have : (py = y ∧ x0 ≤ px ∧ px < x0 + n) ↔ (py = y ∧ x0 ≤ px ∧ px < x0 + (n + 1)) := by omega
        simp [this]
    · rw [blitPixel_hit, Bool.or_eq_true, hhit, Bool.and_eq_true, hpix]
      have hout : ¬ (y = y ∧ x0 ≤ x0 + n ∧ x0 + n < x0 + n) := by omega
      rw [decide_eq_false hout, Bool.false_and, Bool.xor_false]
      constructor
      · rintro ((h | ⟨c, hc, h⟩) | h)
        · exact .inl h
        · exact .inr ⟨c, by omega, h⟩
        · exact .inr ⟨n, by omega, h⟩
      · rintro (h | ⟨c, hc, h⟩)
        · exact .inl (.inl h)
        · by_cases hcn : c = n
          · exact .inr (hcn ▸ h)
          · exact .inl (.inr ⟨c, by omega, h⟩)

/-- One sprite row of 8 pixels. -/
theorem blitRow_spec (b : Byte) (x0 y : Nat) (hx : x0 ≤ 56) (hy : y < 32) (p : Frame × Bool) :
    (∀ px py, (blitRow b x0 y p).1.pixel px py =
      (p.1.pixel px py ^^ (decide (py = y ∧ x0 ≤ px ∧ px < x0 + 8) && spriteBit b (px - x0)))) ∧
    ((blitRow b x0 y p).2 = true ↔
      p.2 = true ∨ ∃ col < 8, spriteBit b col = true ∧ p.1.pixel (x0 + col) y = true) :=
  blitColumns_spec b x0 y hy p 8 (by omega)

/-- The whole sprite: each pixel of its rectangle is XORed with the bit over it, every other pixel is unchanged, and a
collision is reported when some 1 bit met a pixel that was on before the draw. -/
theorem blitRows_spec (bs : List Byte) (x0 y0 : Nat) (hx : x0 ≤ 56) (hy : y0 + bs.length ≤ 32) (p : Frame × Bool) :
    (∀ px py, (blitRows bs x0 y0 p).1.pixel px py =
      (p.1.pixel px py ^^ (decide (y0 ≤ py ∧ py < y0 + bs.length ∧ x0 ≤ px ∧ px < x0 + 8) &&
        spriteBit (bs.getD (py - y0) 0) (px - x0)))) ∧
    ((blitRows bs x0 y0 p).2 = true ↔ p.2 = true ∨
      ∃ row < bs.length, ∃ col < 8, spriteBit (bs.getD row 0) col = true ∧
        p.1.pixel (x0 + col) (y0 + row) = true) := by
  induction bs generalizing y0 p with
  | nil =>
    refine ⟨fun px py => ?_, by simp [blitRows]⟩
    have : ¬ (y0 ≤ py ∧ py < y0 + 0 ∧ x0 ≤ px ∧ px < x0 + 8) := by omega
    simp only [blitRows, List.length_nil, this, decide_false, Bool.false_and, Bool.xor_false]
  | cons b bs ih =>
    simp only [List.length_cons] at hy
    obtain ⟨rpix, rhit⟩ := blitRow_spec b x0 y0 hx (by omega) p
    obtain ⟨hpix, hhit⟩ := ih (y0 + 1) (by omega) (blitRow b x0 y0 p)
    simp only [blitRows, List.length_cons]
    refine ⟨fun px py => ?_, ?_⟩
    · rw [hpix, rpix]
      by_cases h : py = y0
      · subst h
        simp
      · by_cases hlt : py < y0
        · have h1 : ¬ (y0 + 1 ≤ py ∧ py < y0 + 1 + bs.length ∧ x0 ≤ px ∧ px < x0 + 8) := by omega
          have h2 : ¬ (y0 ≤ py ∧ py < y0 + (bs.length + 1) ∧ x0 ≤ px ∧ px < x0 + 8) := by omega
          rw [decide_eq_false h1, decide_eq_false h2]; simp [h]
        · obtain ⟨d, rfl⟩ : ∃ d, py = y0 + 1 + d := ⟨py - (y0 + 1), by omega⟩
          have hb : (b :: bs).getD (y0 + 1 + d - y0) 0 = bs.getD (y0 + 1 + d - (y0 + 1)) 0 := by
            rw [show y0 + 1 + d - y0 = d + 1 by omega, List.getD_cons_succ]; congr 1; omega
          have hr : (y0 + 1 ≤ y0 + 1 + d ∧ y0 + 1 + d < y0 + 1 + bs.length ∧ x0 ≤ px ∧ px < x0 + 8) ↔
              (y0 ≤ y0 + 1 + d ∧ y0 + 1 + d < y0 + (bs.length + 1) ∧ x0 ≤ px ∧ px < x0 + 8) := by omega
          have hfalse : ¬ (y0 + 1 + d = y0 ∧ x0 ≤ px ∧ px < x0 + 8) := by omega
          rw [decide_eq_false hfalse, Bool.false_and, Bool.xor_false, hb]
          simp only [hr]
    · rw [hhit, rhit]
      constructor
      · rintro ((h | ⟨c, hc, h⟩) | ⟨r, hr, c, hc, hs, hp⟩)
        · exact .inl h
        · exact .inr ⟨0, by omega, c, hc, by simpa using h⟩
        · refine .inr ⟨r + 1, by omega, c, hc, by simpa using hs, ?_⟩
          rw [rpix] at hp
          rw [show y0 + (r + 1) = y0 + 1 + r by omega]
          have : ¬ (y0 + 1 + r = y0) := by omega
          simpa [this] using hp
      · rintro (h | ⟨r, hr, c, hc, hs, hp⟩)
        · exact .inl (.inl h)
        · cases r with
          | zero => exact .inl (.inr ⟨c, hc, by simpa using hs, by simpa using hp⟩)
          | succ r =>
            refine .inr ⟨r, by omega, c, hc, by simpa using hs, ?_⟩
            rw [rpix, show y0 + 1 + r = y0 + (r + 1) by omega]
            have : ¬ (y0 + (r + 1) = y0) := by omega
            simpa [this] using hp

end Sys2Proof.Machine
end

