-- ==== Sys2Proof/Laws/Encoding.lean ====
section
/-! SUPPORT. The fields of the words the encoder builds, by which a round trip is checked. -/

namespace Sys2Proof

/-- The low slice of two concatenated fields is the second field. -/
theorem slice_low {m n : Nat} (a : BitVec m) (b : BitVec n) : (a ++ b).extractLsb' 0 n = b := by
  ext i hi
  simp only [BitVec.getElem_extractLsb', BitVec.getLsbD_append]
  simp [hi]

/-- A slice above the second of two concatenated fields is a slice of the first. -/
theorem slice_high {m n : Nat} (a : BitVec m) (b : BitVec n) (st len : Nat) :
    (a ++ b).extractLsb' (n + st) len = a.extractLsb' st len := by
  ext i hi
  simp only [BitVec.getElem_extractLsb', BitVec.getLsbD_append]
  have h : ¬ n + st + i < n := by omega
  simp [h, show n + st + i - n = st + i by omega]

@[simp] theorem ofFin_toFin (x : RegId) : (BitVec.ofFin x : Nibble).toFin = x := rfl

theorem fieldG_wordNNN (g : Nibble) (nnn : Imm12) : fieldG (wordNNN g nnn) = g := by
  show (g ++ nnn : BitVec (4 + 12)).extractLsb' (12 + 0) 4 = g
  rw [slice_high]; simp

theorem fieldNNN_wordNNN (g : Nibble) (nnn : Imm12) : fieldNNN (wordNNN g nnn) = nnn := slice_low g nnn

theorem fieldG_wordXNN (g : Nibble) (x : RegId) (nn : Byte) : fieldG (wordXNN g x nn) = g := by
  show (g ++ (BitVec.ofFin x : Nibble) ++ nn : BitVec (4 + 4 + 8)).extractLsb' (8 + (4 + 0)) 4 = g
  rw [slice_high, slice_high]; simp

theorem fieldX_wordXNN (g : Nibble) (x : RegId) (nn : Byte) : fieldX (wordXNN g x nn) = x := by
  show ((g ++ (BitVec.ofFin x : Nibble) ++ nn : BitVec (4 + 4 + 8)).extractLsb' (8 + 0) 4).toFin = x
  rw [slice_high, slice_low]

theorem fieldNN_wordXNN (g : Nibble) (x : RegId) (nn : Byte) : fieldNN (wordXNN g x nn) = nn := slice_low _ nn

theorem fieldG_wordXYN (g : Nibble) (x y : RegId) (n : Nibble) : fieldG (wordXYN g x y n) = g := by
  show (g ++ (BitVec.ofFin x : Nibble) ++ (BitVec.ofFin y : Nibble) ++ n : BitVec (4 + 4 + 4 + 4)).extractLsb'
    (4 + (4 + (4 + 0))) 4 = g
  rw [slice_high, slice_high, slice_high]; simp

theorem fieldX_wordXYN (g : Nibble) (x y : RegId) (n : Nibble) : fieldX (wordXYN g x y n) = x := by
  show ((g ++ (BitVec.ofFin x : Nibble) ++ (BitVec.ofFin y : Nibble) ++ n : BitVec (4 + 4 + 4 + 4)).extractLsb'
    (4 + (4 + 0)) 4).toFin = x
  rw [slice_high, slice_high, slice_low]

theorem fieldY_wordXYN (g : Nibble) (x y : RegId) (n : Nibble) : fieldY (wordXYN g x y n) = y := by
  show ((g ++ (BitVec.ofFin x : Nibble) ++ (BitVec.ofFin y : Nibble) ++ n : BitVec (4 + 4 + 4 + 4)).extractLsb'
    (4 + 0) 4).toFin = y
  rw [slice_high, slice_low]

theorem fieldN_wordXYN (g : Nibble) (x y : RegId) (n : Nibble) : fieldN (wordXYN g x y n) = n := slice_low _ n

/-- The word of two bytes as a number: the first byte is the high one. -/
theorem wordOfBytes_toNat (hi lo : Byte) : (wordOfBytes hi lo).toNat = hi.toNat * 256 + lo.toNat := by
  show (hi ++ lo : BitVec (8 + 8)).toNat = _
  rw [BitVec.toNat_append, ← Nat.shiftLeft_add_eq_or_of_lt (by omega), Nat.shiftLeft_eq]

/-- A word is its two bytes, high byte first. -/
theorem wordOfBytes_split (op : Word) : wordOfBytes (highByte op) (lowByte op) = op := by
  apply BitVec.eq_of_toNat_eq
  rw [wordOfBytes_toNat]
  simp only [highByte, lowByte, BitVec.extractLsb'_toNat, Nat.shiftRight_eq_div_pow]
  have := op.isLt
  omega

end Sys2Proof
end

