-- ==== Sys2Proof/Laws/PerInstr.lean ====
section
/-! SUPPORT. Per-instruction laws. Family RoundTrip: the word of an instruction decodes to that instruction, operands
and all. -/

namespace Sys2Proof.Laws

/-- Decoding the word of `i` gives `i` back (spec/30_encoding.md R74, R75). -/
def RoundTrip.Statement (i : Instr) : Prop := decode (encode i) = .ok i

theorem RoundTrip.cls : RoundTrip.Statement .cls := rfl

theorem RoundTrip.ret : RoundTrip.Statement .ret := rfl

theorem RoundTrip.jp (nnn : Imm12) : RoundTrip.Statement (.jp nnn) := by
  simp [RoundTrip.Statement, decode, encode, fieldG_wordNNN, fieldNNN_wordNNN]

theorem RoundTrip.call (nnn : Imm12) : RoundTrip.Statement (.call nnn) := by
  simp [RoundTrip.Statement, decode, encode, fieldG_wordNNN, fieldNNN_wordNNN]

theorem RoundTrip.seImm (x : RegId) (nn : Byte) : RoundTrip.Statement (.seImm x nn) := by
  simp [RoundTrip.Statement, decode, encode, fieldG_wordXNN, fieldX_wordXNN, fieldNN_wordXNN]

theorem RoundTrip.sneImm (x : RegId) (nn : Byte) : RoundTrip.Statement (.sneImm x nn) := by
  simp [RoundTrip.Statement, decode, encode, fieldG_wordXNN, fieldX_wordXNN, fieldNN_wordXNN]

theorem RoundTrip.seReg (x : RegId) (y : RegId) : RoundTrip.Statement (.seReg x y) := by
  simp [RoundTrip.Statement, decode, encode, fieldG_wordXYN, fieldX_wordXYN, fieldY_wordXYN, fieldN_wordXYN, decodeLastDigitZero]

theorem RoundTrip.ldImm (x : RegId) (nn : Byte) : RoundTrip.Statement (.ldImm x nn) := by
  simp [RoundTrip.Statement, decode, encode, fieldG_wordXNN, fieldX_wordXNN, fieldNN_wordXNN]

theorem RoundTrip.addImm (x : RegId) (nn : Byte) : RoundTrip.Statement (.addImm x nn) := by
  simp [RoundTrip.Statement, decode, encode, fieldG_wordXNN, fieldX_wordXNN, fieldNN_wordXNN]

theorem RoundTrip.ldReg (x : RegId) (y : RegId) : RoundTrip.Statement (.ldReg x y) := by
  simp [RoundTrip.Statement, decode, encode, fieldG_wordXYN, fieldX_wordXYN, fieldY_wordXYN, fieldN_wordXYN, decodeGroup8]

theorem RoundTrip.orReg (x : RegId) (y : RegId) : RoundTrip.Statement (.orReg x y) := by
  simp [RoundTrip.Statement, decode, encode, fieldG_wordXYN, fieldX_wordXYN, fieldY_wordXYN, fieldN_wordXYN, decodeGroup8]

theorem RoundTrip.andReg (x : RegId) (y : RegId) : RoundTrip.Statement (.andReg x y) := by
  simp [RoundTrip.Statement, decode, encode, fieldG_wordXYN, fieldX_wordXYN, fieldY_wordXYN, fieldN_wordXYN, decodeGroup8]

theorem RoundTrip.xorReg (x : RegId) (y : RegId) : RoundTrip.Statement (.xorReg x y) := by
  simp [RoundTrip.Statement, decode, encode, fieldG_wordXYN, fieldX_wordXYN, fieldY_wordXYN, fieldN_wordXYN, decodeGroup8]

theorem RoundTrip.addReg (x : RegId) (y : RegId) : RoundTrip.Statement (.addReg x y) := by
  simp [RoundTrip.Statement, decode, encode, fieldG_wordXYN, fieldX_wordXYN, fieldY_wordXYN, fieldN_wordXYN, decodeGroup8]

theorem RoundTrip.subReg (x : RegId) (y : RegId) : RoundTrip.Statement (.subReg x y) := by
  simp [RoundTrip.Statement, decode, encode, fieldG_wordXYN, fieldX_wordXYN, fieldY_wordXYN, fieldN_wordXYN, decodeGroup8]

theorem RoundTrip.shr (x : RegId) (y : RegId) : RoundTrip.Statement (.shr x y) := by
  simp [RoundTrip.Statement, decode, encode, fieldG_wordXYN, fieldX_wordXYN, fieldY_wordXYN, fieldN_wordXYN, decodeGroup8]

theorem RoundTrip.subnReg (x : RegId) (y : RegId) : RoundTrip.Statement (.subnReg x y) := by
  simp [RoundTrip.Statement, decode, encode, fieldG_wordXYN, fieldX_wordXYN, fieldY_wordXYN, fieldN_wordXYN, decodeGroup8]

theorem RoundTrip.shl (x : RegId) (y : RegId) : RoundTrip.Statement (.shl x y) := by
  simp [RoundTrip.Statement, decode, encode, fieldG_wordXYN, fieldX_wordXYN, fieldY_wordXYN, fieldN_wordXYN, decodeGroup8]

theorem RoundTrip.sneReg (x : RegId) (y : RegId) : RoundTrip.Statement (.sneReg x y) := by
  simp [RoundTrip.Statement, decode, encode, fieldG_wordXYN, fieldX_wordXYN, fieldY_wordXYN, fieldN_wordXYN, decodeLastDigitZero]

theorem RoundTrip.ldI (nnn : Imm12) : RoundTrip.Statement (.ldI nnn) := by
  simp [RoundTrip.Statement, decode, encode, fieldG_wordNNN, fieldNNN_wordNNN]

theorem RoundTrip.jpV0 (nnn : Imm12) : RoundTrip.Statement (.jpV0 nnn) := by
  simp [RoundTrip.Statement, decode, encode, fieldG_wordNNN, fieldNNN_wordNNN]

theorem RoundTrip.rnd (x : RegId) (nn : Byte) : RoundTrip.Statement (.rnd x nn) := by
  simp [RoundTrip.Statement, decode, encode, fieldG_wordXNN, fieldX_wordXNN, fieldNN_wordXNN]

theorem RoundTrip.drw (x : RegId) (y : RegId) (n : Nibble) : RoundTrip.Statement (.drw x y n) := by
  simp [RoundTrip.Statement, decode, encode, fieldG_wordXYN, fieldX_wordXYN, fieldY_wordXYN, fieldN_wordXYN]

theorem RoundTrip.skp (x : RegId) : RoundTrip.Statement (.skp x) := by
  simp [RoundTrip.Statement, decode, encode, fieldG_wordXNN, fieldX_wordXNN, fieldNN_wordXNN, decodeGroupE]

theorem RoundTrip.sknp (x : RegId) : RoundTrip.Statement (.sknp x) := by
  simp [RoundTrip.Statement, decode, encode, fieldG_wordXNN, fieldX_wordXNN, fieldNN_wordXNN, decodeGroupE]

theorem RoundTrip.ldVxDT (x : RegId) : RoundTrip.Statement (.ldVxDT x) := by
  simp [RoundTrip.Statement, decode, encode, fieldG_wordXNN, fieldX_wordXNN, fieldNN_wordXNN, decodeGroupF]

theorem RoundTrip.ldVxK (x : RegId) : RoundTrip.Statement (.ldVxK x) := by
  simp [RoundTrip.Statement, decode, encode, fieldG_wordXNN, fieldX_wordXNN, fieldNN_wordXNN, decodeGroupF]

theorem RoundTrip.ldDTVx (x : RegId) : RoundTrip.Statement (.ldDTVx x) := by
  simp [RoundTrip.Statement, decode, encode, fieldG_wordXNN, fieldX_wordXNN, fieldNN_wordXNN, decodeGroupF]

theorem RoundTrip.ldSTVx (x : RegId) : RoundTrip.Statement (.ldSTVx x) := by
  simp [RoundTrip.Statement, decode, encode, fieldG_wordXNN, fieldX_wordXNN, fieldNN_wordXNN, decodeGroupF]

theorem RoundTrip.addI (x : RegId) : RoundTrip.Statement (.addI x) := by
  simp [RoundTrip.Statement, decode, encode, fieldG_wordXNN, fieldX_wordXNN, fieldNN_wordXNN, decodeGroupF]

theorem RoundTrip.ldF (x : RegId) : RoundTrip.Statement (.ldF x) := by
  simp [RoundTrip.Statement, decode, encode, fieldG_wordXNN, fieldX_wordXNN, fieldNN_wordXNN, decodeGroupF]

theorem RoundTrip.ldB (x : RegId) : RoundTrip.Statement (.ldB x) := by
  simp [RoundTrip.Statement, decode, encode, fieldG_wordXNN, fieldX_wordXNN, fieldNN_wordXNN, decodeGroupF]

theorem RoundTrip.stRegs (x : RegId) : RoundTrip.Statement (.stRegs x) := by
  simp [RoundTrip.Statement, decode, encode, fieldG_wordXNN, fieldX_wordXNN, fieldNN_wordXNN, decodeGroupF]

theorem RoundTrip.ldRegs (x : RegId) : RoundTrip.Statement (.ldRegs x) := by
  simp [RoundTrip.Statement, decode, encode, fieldG_wordXNN, fieldX_wordXNN, fieldNN_wordXNN, decodeGroupF]

end Sys2Proof.Laws
end

