-- ==== Sys2Proof/Laws/Step.lean ====
section
/-! SUPPORT. What a step can do, said once, and what its phases leave in each field. -/

namespace Sys2Proof.Machine

/-- Everything a step that answers can have done: nothing (halted), FetchOutOfRange, the report of a reserved word, or
one decoded instruction with the end of its step. -/
theorem step_cases {s t : State} (h : step s = .next t) :
    (s.fault ≠ none ∧ t = s) ∨
    (s.fault = none ∧ s.fetchable = false ∧ t = s.raise .fetchOutOfRange) ∨
    (s.fault = none ∧ s.fetchable = true ∧ (∃ e, decode s.fetchWord = .error e) ∧
      t = (s.reportUnknown s.fetchWord).timerPhase) ∨
    (s.fault = none ∧ s.fetchable = true ∧
      ∃ i u, decode s.fetchWord = .ok i ∧ exec i s = .next u ∧ t = afterExec i s u) := by
  unfold step at h
  split at h
  · rename_i hf
    cases h
    exact .inl ⟨fun h0 => by simp [h0] at hf, rfl⟩
  · have hf : s.fault = none := by simpa using ‹¬ s.fault.isSome = true›
    split at h
    · cases h
      exact .inr (.inl ⟨hf, by simpa using ‹¬ s.fetchable = true›, rfl⟩)
    · have hg : s.fetchable = true := by simpa using ‹¬ ¬ s.fetchable = true›
      split at h
      · cases h
        exact .inr (.inr (.inl ⟨hf, hg, ⟨_, ‹_›⟩, rfl⟩))
      · split at h
        · cases h
          exact .inr (.inr (.inr ⟨hf, hg, _, _, ‹_›, ‹_›, rfl⟩))
        · cases h
        · cases h

/-- An instruction answers in every state whose SP names a stack slot or the full stack. -/
theorem exec_answers (i : Instr) (s : State) (h : s.sp.toNat ≤ 16) : ∃ t, exec i s = .next t := by
  cases i
  case ret =>
    simp only [exec, execRet]
    split
    · exact ⟨_, rfl⟩
    · rename_i h0
      have hpos : s.sp.toNat ≠ 0 := fun hz => h0 (BitVec.eq_of_toNat_eq (by simpa using hz))
      have hlt : (s.sp - 1).toNat < 16 := by simp only [BitVec.toNat_sub]; simp; omega
      rcases s.pop_cases with ⟨_, hp⟩ | ⟨hge, _⟩
      · exact ⟨_, by rw [hp]⟩
      · omega
  case call nnn =>
    simp only [exec, execCall]
    split
    · exact ⟨_, rfl⟩
    · rename_i h0
      have hne : s.sp.toNat ≠ 16 := fun hz => h0 (BitVec.eq_of_toNat_eq (by simpa using hz))
      rcases s.push_cases s.pc with ⟨_, hp⟩ | ⟨hge, _⟩
      · exact ⟨_, by rw [hp]⟩
      · omega
  case drw x y n => simp only [exec, execDrw]; split <;> (try split) <;> exact ⟨_, rfl⟩
  case skp x => simp only [exec, execSkp]; split <;> exact ⟨_, rfl⟩
  case sknp x => simp only [exec, execSknp]; split <;> exact ⟨_, rfl⟩
  case ldVxK x => simp only [exec, execLdVxK]; split <;> exact ⟨_, rfl⟩
  case ldB x => simp only [exec, execLdB]; split <;> exact ⟨_, rfl⟩
  case stRegs x => simp only [exec, execStRegs]; split <;> exact ⟨_, rfl⟩
  case ldRegs x => simp only [exec, execLdRegs]; split <;> exact ⟨_, rfl⟩
  all_goals exact ⟨_, rfl⟩

/-- A tick takes one off a timer above 0 and leaves a timer at 0. -/
theorem tick_toNat (b : Byte) : (tick b).toNat = b.toNat - 1 := by
  unfold tick
  split
  · simp_all
  · rename_i h
    have : b.toNat ≠ 0 := fun hz => h (BitVec.eq_of_toNat_eq (by simpa using hz))
    rw [BitVec.toNat_sub]; simp; omega

/-- A placed word is what the next fetch reads. -/
theorem State.fetchWord_placeWord (s : State) (op : Word) (h : s.fetchable = true) :
    (s.placeWord op).fetchWord = op := by
  simp [State.placeWord, h, State.fetchWord, wordOfBytes_split]

end Sys2Proof.Machine
end

