-- ==== Sys2Proof/Tests/Slice0.lean ====
section
/-! SUPPORT. The model's own tests. Expected results are those of spec/95_test_vectors.md, named in the comments (V-…,
S…), or of the encodings of spec/30_encoding.md R75; a step test makes one step from a small state. After them, one
named witness for each statement of Certificates/Slice0/Obligations.lean that has hypotheses. -/

namespace Sys2Proof.Tests

open Sys2Proof Sys2Proof.Machine

/-! ## Helpers -/

/-- The reset state with a word placed at PC, as the vectors are run. -/
def at0 (op : Word) : State := State.reset.placeWord op

/-- The reset state with PC elsewhere and a word placed there. -/
def atPc (pc op : Word) : State := { State.reset with pc := pc }.placeWord op

/-- Did it answer a next state. -/
def answers : Out → Bool
  | .next _ => true
  | _ => false

/-- The next state it answered. -/
def nextOf : Out → State
  | .next t => t
  | _ => State.reset

/-- An answer is the next state that `nextOf` shows. -/
theorem eq_nextOf {o : Out} (h : answers o = true) : o = .next (nextOf o) := by
  cases o <;> simp_all [answers, nextOf]

/-- One step, seen through `f`; nothing unless it answers a next state. -/
def after {α : Type} (s : State) (f : State → α) : Option α :=
  if answers (step s) then some (f (nextOf (step s))) else none

/-! ## Decoding: a word written out from the encodings of R75 for every constructor -/

theorem test_decode_control :
    decode 0x00EE = .ok .ret ∧ decode 0x1ABC = .ok (.jp 0xABC) ∧ decode 0x2ABC = .ok (.call 0xABC) ∧
    decode 0x3A7F = .ok (.seImm 10 0x7F) ∧ decode 0x4A7F = .ok (.sneImm 10 0x7F) ∧
    decode 0x5AB0 = .ok (.seReg 10 11) ∧ decode 0x9AB0 = .ok (.sneReg 10 11) ∧
    decode 0xB123 = .ok (.jpV0 0x123) := by decide

theorem test_decode_alu :
    decode 0x6A7F = .ok (.ldImm 10 0x7F) ∧ decode 0x7A7F = .ok (.addImm 10 0x7F) ∧
    decode 0x8AB0 = .ok (.ldReg 10 11) ∧ decode 0x8AB1 = .ok (.orReg 10 11) ∧
    decode 0x8AB2 = .ok (.andReg 10 11) ∧ decode 0x8AB3 = .ok (.xorReg 10 11) ∧
    decode 0x8AB4 = .ok (.addReg 10 11) ∧ decode 0x8AB5 = .ok (.subReg 10 11) ∧
    decode 0x8AB6 = .ok (.shr 10 11) ∧ decode 0x8AB7 = .ok (.subnReg 10 11) ∧
    decode 0x8ABE = .ok (.shl 10 11) ∧ decode 0xCA0F = .ok (.rnd 10 0x0F) := by decide

theorem test_decode_memory_display :
    decode 0xA22A = .ok (.ldI 0x22A) ∧ decode 0xFA1E = .ok (.addI 10) ∧ decode 0xFA29 = .ok (.ldF 10) ∧
    decode 0xFA33 = .ok (.ldB 10) ∧ decode 0xFA55 = .ok (.stRegs 10) ∧ decode 0xFA65 = .ok (.ldRegs 10) ∧
    decode 0x00E0 = .ok .cls ∧ decode 0xDABC = .ok (.drw 10 11 12) := by decide

theorem test_decode_keypad_timers :
    decode 0xEA9E = .ok (.skp 10) ∧ decode 0xEAA1 = .ok (.sknp 10) ∧ decode 0xFA07 = .ok (.ldVxDT 10) ∧
    decode 0xFA0A = .ok (.ldVxK 10) ∧ decode 0xFA15 = .ok (.ldDTVx 10) ∧ decode 0xFA18 = .ok (.ldSTVx 10) := by
  decide

/-- Reserved words (R76, V-X1 to V-X10) are rejected by name. -/
theorem test_decode_reserved :
    decode 0x0000 = .error (.unrecognized 0x0000) ∧ decode 0x01E0 = .error (.unrecognized 0x01E0) ∧
    decode 0x5121 = .error (.unrecognized 0x5121) ∧ decode 0x8128 = .error (.unrecognized 0x8128) ∧
    decode 0x9121 = .error (.unrecognized 0x9121) ∧ decode 0xE29F = .error (.unrecognized 0xE29F) ∧
    decode 0xF175 = .error (.unrecognized 0xF175) := by decide

/-- Two bytes, the high one first, and no fewer (R56, R71). -/
theorem test_decodeBytes :
    decodeBytes [0x12, 0x34, 0x56] = .ok (.jp 0x234, [0x56]) ∧ decodeBytes [0x12] = .error (.truncated 1) := by
  decide

/-- The encodings of R75, and a table word and its placing (log entry 14). -/
theorem test_encode :
    encode (.drw 10 11 12) = 0xDABC ∧ encode (.shr 4 5) = 0x8456 ∧ encode (.ldRegs 10) = 0xFA65 ∧
    decodeTableWord 16 0x8AB4 = some (.addReg 10 11) ∧ decodeTableWord 16 0xF175 = none ∧
    (State.reset.withFetchWord 16 0x8AB4).fetchWord = 0x8AB4 := by decide

/-! ## WellFormed: an ill-formed word for each check is refused -/

theorem smoke_group0 : wellFormedWord 0x00E0 = true ∧ wellFormedWord 0x00E1 = false ∧
    wellFormedWord 0x01E0 = false ∧ wellFormedWord 0x01EE = false := by decide
theorem smoke_group5 : wellFormedWord 0x5120 = true ∧ wellFormedWord 0x5121 = false := by decide
theorem smoke_group8 : wellFormedWord 0x812E = true ∧ wellFormedWord 0x8128 = false ∧
    wellFormedWord 0x812F = false := by decide
theorem smoke_group9 : wellFormedWord 0x9120 = true ∧ wellFormedWord 0x912F = false := by decide
theorem smoke_groupE : wellFormedWord 0xE29E = true ∧ wellFormedWord 0xE29F = false := by decide
theorem smoke_groupF : wellFormedWord 0xF165 = true ∧ wellFormedWord 0xF175 = false ∧
    wellFormedWord 0xF000 = false := by decide

/-! ## Control transfer -/

/-- V-C1, with the popped slot keeping its value. -/
theorem test_ret : after { atPc 0x300 0x00EE with sp := 1, stack := (Vector.replicate 16 0).set 0 0x204 }
    (fun t => (t.pc, t.sp, t.stack[0])) = some (0x206, 0, 0x204) := by decide
/-- V-C2: the timers stand still. -/
theorem test_ret_underflow : after { atPc 0x300 0x00EE with delayTimer := 3 }
    (fun t => (t.fault, t.pc, t.sp, t.delayTimer)) = some (some .stackUnderflow, 0x300, 0, 3) := by decide
/-- V-C3. -/
theorem test_jp : after (at0 0x1234) (fun t => t.pc) = some 0x234 := by decide
/-- V-C7. -/
theorem test_call : after { atPc 0x204 0x2300 with sp := 15 }
    (fun t => (t.pc, t.sp, t.stack[15])) = some (0x300, 16, 0x204) := by decide
/-- V-C8. -/
theorem test_call_overflow : after { atPc 0x204 0x2300 with sp := 16 }
    (fun t => (t.fault, t.pc, t.sp, t.stack)) =
      some (some .stackOverflow, 0x204, 16, Vector.replicate 16 0) := by decide
/-- V-C9, V-C10. -/
theorem test_seImm : after ((at0 0x332A).setV 3 0x2A) (fun t => t.pc) = some 0x204 ∧
    after ((at0 0x332A).setV 3 0x2B) (fun t => t.pc) = some 0x202 := by decide
/-- V-C11, V-C12. -/
theorem test_sneImm : after ((at0 0x432A).setV 3 0x2A) (fun t => t.pc) = some 0x202 ∧
    after (at0 0x432A) (fun t => t.pc) = some 0x204 := by decide
/-- V-C13, V-C14. -/
theorem test_seReg : after (((at0 0x5120).setV 1 7).setV 2 7) (fun t => t.pc) = some 0x204 ∧
    after (((at0 0x5120).setV 1 7).setV 2 8) (fun t => t.pc) = some 0x202 := by decide
/-- V-C16, V-C17. -/
theorem test_sneReg : after (((at0 0x9120).setV 1 7).setV 2 8) (fun t => t.pc) = some 0x204 ∧
    after (((at0 0x9120).setV 1 7).setV 2 7) (fun t => t.pc) = some 0x202 := by decide
/-- V-C20: the sum is not reduced to 12 bits. -/
theorem test_jpV0 : after ((at0 0xBFFF).setV 0 0xFF) (fun t => t.pc) = some 0x10FE := by decide
/-- V-C21: the X digit is part of NNN. -/
theorem test_jpV0_not_vx : after ((at0 0xB300).setV 3 0x55) (fun t => t.pc) = some 0x300 := by decide

/-! ## Load, ALU, random -/

/-- V-A1. -/
theorem test_ldImm : after (at0 0x652A) (fun t => (t.getV 5, t.pc)) = some (0x2A, 0x202) := by decide
/-- V-A3: no carry flag. -/
theorem test_addImm : after (((at0 0x7220).setV 2 0xF0).setV 15 0x55) (fun t => (t.getV 2, t.getV 15, t.pc)) =
    some (0x10, 0x55, 0x202) := by decide
/-- V-A6. -/
theorem test_ldReg : after (((at0 0x8120).setV 1 0x12).setV 2 0x34) (fun t => (t.getV 1, t.getV 2)) =
    some (0x34, 0x34) := by decide
/-- V-A7. -/
theorem test_orReg : after ((((at0 0x8121).setV 1 0xF0).setV 2 0x0F).setV 15 0x55) (fun t => (t.getV 1, t.getV 15)) =
    some (0xFF, 0x55) := by decide
/-- V-A8. -/
theorem test_andReg : after ((((at0 0x8122).setV 1 0xF0).setV 2 0x3C).setV 15 0x55) (fun t => (t.getV 1, t.getV 15)) =
    some (0x30, 0x55) := by decide
/-- V-A9. -/
theorem test_xorReg : after ((((at0 0x8123).setV 1 0xF0).setV 2 0x3C).setV 15 0x55) (fun t => (t.getV 1, t.getV 15)) =
    some (0xCC, 0x55) := by decide
/-- V-A11. -/
theorem test_addReg : after (((at0 0x8124).setV 1 0xFF).setV 2 1) (fun t => (t.getV 1, t.getV 15, t.pc)) =
    some (0, 1, 0x202) := by decide
/-- V-A40, V-A43, V-A44: VF as destination, as operand, as both. -/
theorem test_addReg_vf :
    after (((at0 0x8F14).setV 15 0xF0).setV 1 0x20) (fun t => t.getV 15) = some 0x21 ∧
    after (((at0 0x81F4).setV 15 5).setV 1 0x10) (fun t => (t.getV 1, t.getV 15)) = some (0x10, 0) ∧
    after ((at0 0x8FF4).setV 15 0x80) (fun t => t.getV 15) = some 2 := by decide
/-- V-A17, V-A18. -/
theorem test_subReg :
    after (((at0 0x8125).setV 1 5).setV 2 0xA) (fun t => (t.getV 1, t.getV 15)) = some (0xFB, 0) ∧
    after (((at0 0x8125).setV 1 7).setV 2 7) (fun t => (t.getV 1, t.getV 15)) = some (0, 1) := by decide
/-- V-A46, V-A48, V-A50. -/
theorem test_subReg_vf :
    after (((at0 0x8F15).setV 15 0x10).setV 1 3) (fun t => t.getV 15) = some 0xFE ∧
    after (((at0 0x81F5).setV 15 5).setV 1 0x10) (fun t => (t.getV 1, t.getV 15)) = some (0xF, 1) ∧
    after ((at0 0x8FF5).setV 15 0x44) (fun t => t.getV 15) = some 0 := by decide
/-- V-A21, V-A24: V[Y] is ignored. -/
theorem test_shr :
    after ((at0 0x8406).setV 4 5) (fun t => (t.getV 4, t.getV 15)) = some (2, 1) ∧
    after (((at0 0x8456).setV 4 4).setV 5 0xFF) (fun t => (t.getV 4, t.getV 5, t.getV 15)) = some (2, 0xFF, 0) := by
  decide
/-- V-A51. -/
theorem test_shr_vf : after ((at0 0x8F06).setV 15 3) (fun t => t.getV 15) = some 0 := by decide
/-- V-A25, V-A26. -/
theorem test_subnReg :
    after (((at0 0x8127).setV 1 0xA).setV 2 5) (fun t => (t.getV 1, t.getV 15)) = some (0xFB, 0) ∧
    after (((at0 0x8127).setV 1 5).setV 2 0xA) (fun t => (t.getV 1, t.getV 15)) = some (5, 1) := by decide
/-- V-A54, V-A55, V-A57. -/
theorem test_subnReg_vf :
    after (((at0 0x8F17).setV 15 2).setV 1 3) (fun t => t.getV 15) = some 2 ∧
    after (((at0 0x81F7).setV 15 5).setV 1 0x10) (fun t => (t.getV 1, t.getV 15)) = some (0xF0, 0) ∧
    after ((at0 0x8FF7).setV 15 0x44) (fun t => t.getV 15) = some 0 := by decide
/-- V-A28, V-A31: V[Y] is ignored. -/
theorem test_shl :
    after ((at0 0x840E).setV 4 0x81) (fun t => (t.getV 4, t.getV 15)) = some (2, 1) ∧
    after (((at0 0x845E).setV 4 0x40).setV 5 0xFF) (fun t => (t.getV 4, t.getV 5, t.getV 15)) =
      some (0x80, 0xFF, 0) := by decide
/-- V-A58. -/
theorem test_shl_vf : after ((at0 0x8F0E).setV 15 0x80) (fun t => t.getV 15) = some 2 := by decide
/-- R122: PC advances and one draw is made. -/
theorem test_rnd_fields : after (at0 0xC30F) (fun t => (t.pc, t.drawIndex, t.getV 2)) = some (0x202, 1, 0) := by decide
/-- V-A33, for every draw: NN = 0 gives 0. -/
theorem test_rnd_zero : (nextOf (step (at0 0xC300))).getV 3 = 0 := by
  have h : (nextOf (step (at0 0xC300))).getV 3 = Config.draw8 0 &&& 0 := rfl
  rw [h]; simp

/-! ## Index and memory -/

/-- V-M1. -/
theorem test_ldI : after (at0 0xA22A) (fun t => (t.index, t.pc)) = some (0x22A, 0x202) := by decide
/-- V-M5, V-M7: not reduced to 12 bits; the comparison is of the whole sum. -/
theorem test_addI :
    after (((at0 0xF21E).setIndex 0xFFF).setV 2 1) (fun t => (t.index, t.getV 15)) = some (0x1000, 1) ∧
    after (((at0 0xF21E).setIndex 0xFFFF).setV 2 1) (fun t => (t.index, t.getV 15)) = some (0, 1) := by decide
/-- V-M9, V-M10. -/
theorem test_addI_vf :
    after (((at0 0xFF1E).setIndex 0xFFF).setV 15 1) (fun t => (t.index, t.getV 15)) = some (0x1000, 1) ∧
    after (((at0 0xFF1E).setIndex 0x300).setV 15 9) (fun t => (t.index, t.getV 15)) = some (0x300, 0) := by decide
/-- V-M12, V-M13: V[X] is not masked. -/
theorem test_ldF : after ((at0 0xF329).setV 3 0xF) (fun t => t.index) = some 0x4B ∧
    after ((at0 0xF329).setV 3 0xFF) (fun t => t.index) = some 0x4FB := by decide
/-- V-M20: the last three bytes of memory. -/
theorem test_ldB : after (((at0 0xF433).setIndex 0xFFD).setV 4 123)
    (fun t => (t.readByte 0xFFD, t.readByte 0xFFE, t.readByte 0xFFF, t.index)) = some (1, 2, 3, 0xFFD) := by decide
/-- V-M21. -/
theorem test_ldB_outside : after (((at0 0xF433).setIndex 0xFFE).setV 4 123)
    (fun t => (t.fault, t.readByte 0xFFE, t.readByte 0xFFF, t.pc)) = some (some .memoryOutOfRange, 0, 0, 0x200) := by
  decide
/-- V-M22, with V3 not stored. -/
theorem test_stRegs : after (((((at0 0xF255).setIndex 0x300).setV 0 0x11).setV 1 0x22).setV 2 0x33 |>.setV 3 0x44)
    (fun t => (t.readByte 0x300, t.readByte 0x301, t.readByte 0x302, t.readByte 0x303, t.index)) =
      some (0x11, 0x22, 0x33, 0, 0x303) := by decide
/-- V-M24. -/
theorem test_stRegs_outside : after (((at0 0xF155).setIndex 0xFFF).setV 0 0x11)
    (fun t => (t.fault, t.readByte 0xFFF, t.index)) = some (some .memoryOutOfRange, 0, 0xFFF) := by decide
/-- V-M26, with V2 not loaded. -/
theorem test_ldRegs :
    after ((((at0 0xF165).setIndex 0x300).setV 2 0x99).writeBytes 0x300 [0xAA, 0xBB, 0xCC])
      (fun t => (t.getV 0, t.getV 1, t.getV 2, t.index)) = some (0xAA, 0xBB, 0x99, 0x302) := by decide
/-- V-M27: the fontset at its place. -/
theorem test_ldRegs_font : after (at0 0xFF65) (fun t => (t.v.toList, t.index)) =
    some ([0xF0, 0x90, 0x90, 0x90, 0xF0, 0x20, 0x60, 0x20, 0x20, 0x70, 0xF0, 0x10, 0xF0, 0x80, 0xF0, 0xF0], 0x10) := by
  decide

/-! ## Display -/

/-- V-D14. -/
theorem test_cls : after { (at0 0x00E0).setV 15 9 with framebuffer := Vector.replicate 32 5, drawFlag := false }
    (fun t => (t.framebuffer, t.getV 15, t.drawFlag)) = some (Vector.replicate 32 0, 9, true) := by decide
/-- V-D12: pixel (0, 0) goes on, pixel (1, 0) goes off. -/
theorem test_drw_collision :
    after { ((at0 0xD011).setIndex 0x300).writeByte 0x300 0xC0 with framebuffer := (Vector.replicate 32 0).set 0 2 }
      (fun t => (t.framebuffer.pixel 0 0, t.framebuffer.pixel 1 0, t.getV 15)) = some (true, false, 1) := by decide
/-- V-D9, V-D4: memory is checked before the grid. -/
theorem test_drw_faults :
    after (((at0 0xD012).setIndex 0xFFF).setV 0 60) (fun t => (t.fault, t.pc)) =
      some (some .memoryOutOfRange, 0x200) ∧
    after (((at0 0xD011).setIndex 0x300).setV 0 57) (fun t => (t.fault, t.pc)) =
      some (some .drawOutOfBounds, 0x200) := by decide

/-! ## Keypad and timers -/

/-- V-K3, V-K2. -/
theorem test_skp :
    after { (at0 0xE29E).setV 2 0xF with keypad := 0x8000 } (fun t => t.pc) = some 0x204 ∧
    after ((at0 0xE29E).setV 2 5) (fun t => t.pc) = some 0x202 := by decide
/-- V-K4. -/
theorem test_skp_outside : after { (at0 0xE29E).setV 2 16 with keypad := 0xFFFF } (fun t => (t.fault, t.pc)) =
    some (some .keyIndexOutOfRange, 0x200) := by decide
/-- V-K5, V-K6. -/
theorem test_sknp :
    after { (at0 0xE2A1).setV 2 5 with keypad := 0x20 } (fun t => t.pc) = some 0x202 ∧
    after ((at0 0xE2A1).setV 2 5) (fun t => t.pc) = some 0x204 := by decide
/-- V-K7. -/
theorem test_sknp_outside : after ((at0 0xE2A1).setV 2 0xFF) (fun t => t.fault) =
    some (some .keyIndexOutOfRange) := by decide
/-- V-K8: the lowest key, and the timer phase. -/
theorem test_ldVxK : after { at0 0xF50A with keypad := 0x88, delayTimer := 3 }
    (fun t => (t.getV 5, t.pc, t.delayTimer)) = some (3, 0x202, 2) := by decide
/-- V-K9: nothing changes. -/
theorem test_ldVxK_waits : after { at0 0xF50A with delayTimer := 3, soundTimer := 1 } id =
    some { at0 0xF50A with delayTimer := 3, soundTimer := 1 } := by decide
/-- V-K12: read before the tick. -/
theorem test_ldVxDT : after { at0 0xF307 with delayTimer := 0x10 } (fun t => (t.getV 3, t.delayTimer)) =
    some (0x10, 0xF) := by decide
/-- V-K14, V-K15. -/
theorem test_ldDTVx : after ((at0 0xF315).setV 3 0x3C) (fun t => t.delayTimer) = some 0x3B ∧
    after { at0 0xF315 with delayTimer := 9 } (fun t => t.delayTimer) = some 0 := by decide
/-- V-K18, V-K19: Beep in the same step, or never. -/
theorem test_ldSTVx : after ((at0 0xF318).setV 3 1) (fun t => (t.soundTimer, t.trace)) = some (0, [.beep]) ∧
    after { at0 0xF318 with soundTimer := 5 } (fun t => (t.soundTimer, t.trace)) = some (0, []) := by decide

/-! ## The step -/

/-- V-X2: a reserved word, its diagnostic before the Beep. -/
theorem test_reserved : after { at0 0x5121 with soundTimer := 1 } (fun t => (t.trace, t.pc, t.soundTimer)) =
    some ([.unknownOpcode 0x5121, .beep], 0x202, 0) := by decide
/-- V-X11: halted. -/
theorem test_halted : after { at0 0x6001 with fault := some .stackOverflow, delayTimer := 5, soundTimer := 1 } id =
    some { at0 0x6001 with fault := some .stackOverflow, delayTimer := 5, soundTimer := 1 } := by decide
/-- V-C24: no fetch above 0xFFE. -/
theorem test_fetch_outside : after { State.reset with pc := 0xFFF, delayTimer := 5 }
    (fun t => (t.fault, t.pc, t.delayTimer)) = some (some .fetchOutOfRange, 0xFFF, 5) := by decide
/-- V-C25, second step: an odd PC fetches. -/
theorem test_fetch_odd : after (State.reset.writeBytes 0x200 [0x12, 0x01, 0x23] |>.jumpTo 0x201)
    (fun t => (t.pc, t.trace)) = some (0x203, [.unknownOpcode 0x0123]) := by decide
/-- S8: a timer decays to 0 and stays there. -/
theorem test_tick : tick 2 = 1 ∧ tick 1 = 0 ∧ tick 0 = 0 ∧ tick 0xFF = 0xFE := by decide
/-- S6: 3584 bytes load, 3585 do not. -/
theorem test_load : (State.reset.loadProgram (List.replicate 3584 0)).2 = .ok ∧
    (State.reset.loadProgram (List.replicate 3585 0)).2 = .romTooLarge := by decide +kernel

/-! ## Witnesses: for each statement with hypotheses, values that meet them all -/

/-- A state that meets the invariant: one call deep, a byte stored, keys down. -/
def deep : State :=
  { (at0 0x00EE).writeByte 0x300 7 with sp := 1, stack := (Vector.replicate 16 0).set 0 0xFFE, keypad := 3 }

theorem witness_inv : deep.Inv := ⟨by decide, by decide, by decide, by decide⟩

/-- EncodeOfDecodeIsTheWord. -/
theorem witness_encodeOfDecode : decode 0x8456 = .ok (.shr 4 5) := by decide

/-- DecodeAcceptsExactlyTheOpcodeMap: a word of the map, and one that meets the second clause. -/
theorem witness_decodeAccepts : (∃ r ∈ opcodeMap, (0xF165 : Word) &&& r.mask = r.value) ∧
    ¬ ∃ r ∈ opcodeMap, (0xF166 : Word) &&& r.mask = r.value := by decide

/-- OpcodeRowsAreDisjoint. -/
theorem witness_opcodeRows : (⟨0xF00F, 0x8006⟩ : OpcodeRow) ∈ opcodeMap ∧ (0x8456 : Word) &&& 0xF00F = 0x8006 := by
  decide

/-- StepRunsTheDecodedInstruction, its hypotheses. -/
def Fetches (s : State) (i : Instr) : Prop :=
  s.fault = none ∧ s.pc.toNat ≤ 0xFFE ∧
    decodeBytes [s.readByte s.pc.toNat, s.readByte (s.pc.toNat + 1)] = .ok (i, [])

/-- First clause: an instruction that raises a fault. -/
theorem witness_stepRuns_fault : Fetches ((at0 0xE29E).setV 2 16) (.skp 2) ∧
    ∃ t, exec (.skp 2) ((at0 0xE29E).setV 2 16) = .next t ∧ t.fault ≠ none :=
  ⟨⟨by decide, by decide, by decide⟩, _, eq_nextOf (by decide), by decide⟩
/-- Second clause: FX0A with no key pressed. -/
theorem witness_stepRuns_wait : Fetches (at0 0xF50A) (.ldVxK 5) ∧ (at0 0xF50A).keypad = 0 ∧
    ∃ t, exec (.ldVxK 5) (at0 0xF50A) = .next t :=
  ⟨⟨by decide, by decide, by decide⟩, by decide, _, eq_nextOf (by decide)⟩
/-- Third clause, at the last PC that fetches. -/
theorem witness_stepRuns_next : Fetches (atPc 0xFFE 0x1200) (.jp 0x200) ∧
    (∃ t, exec (.jp 0x200) (atPc 0xFFE 0x1200) = .next t ∧ t.fault = none) ∧
    ¬ ((∃ x, Instr.jp 0x200 = .ldVxK x) ∧ (atPc 0xFFE 0x1200).keypad = 0) :=
  ⟨⟨by decide, by decide, by decide⟩, ⟨_, eq_nextOf (by decide), by decide⟩, by simp⟩
/-- Fourth clause: the model's own stop (log entry 6). -/
theorem witness_stepRuns_stop : Fetches { at0 0x00EE with sp := 18 } .ret ∧
    exec .ret { at0 0x00EE with sp := 18 } = .fault .stackSlotMissing :=
  ⟨⟨by decide, by decide, by decide⟩, rfl⟩

/-- HaltedStepChangesNothing, OnlyRestartClearsTheLatch. -/
theorem witness_halted : ({ at0 0x6001 with fault := some .stackOverflow } : State).fault = some .stackOverflow ∧
    (∃ t, step { at0 0x6001 with fault := some .stackOverflow } = .next t) ∧ HostMove.drawAck ≠ .restart :=
  ⟨rfl, ⟨_, eq_nextOf (by decide)⟩, by decide⟩

/-- FetchOutsideMemoryFaults, at the lowest such PC. -/
theorem witness_fetchOutside : ({ State.reset with pc := 0xFFF } : State).fault = none ∧
    0xFFE < ({ State.reset with pc := 0xFFF } : State).pc.toNat := by decide

/-- ReservedWordIsReportedAndPassedOver, with a Beep. -/
theorem witness_reserved : (atPc 0xFFE 0x5121).fault = none ∧ (atPc 0xFFE 0x5121).pc.toNat ≤ 0xFFE ∧
    decode (atPc 0xFFE 0x5121).fetchWord = .error (.unrecognized 0x5121) := by decide

/-- StepTicksEachTimerOnce: one instruction that meets both clauses, and FX0A with a key. -/
theorem witness_stepTicks :
    (let s : State := { at0 0x6001 with delayTimer := 0xFF, soundTimer := 1 }
     s.fault = none ∧ s.pc.toNat ≤ 0xFFE ∧ decode s.fetchWord = .ok (.ldImm 0 1) ∧ answers (step s) = true ∧
       (nextOf (step s)).fault = none) ∧
    (let s : State := { at0 0xF50A with delayTimer := 1, keypad := 8 }
     s.fault = none ∧ s.pc.toNat ≤ 0xFFE ∧ decode s.fetchWord = .ok (.ldVxK 5) ∧ answers (step s) = true ∧
       (nextOf (step s)).fault = none ∧ s.keypad ≠ 0) := by decide

/-- ReachableStatesMeetTheInvariantAndStepOn. -/
theorem witness_reachable : Reachable (hostMove (.load [0x12, 0x00]) State.reset).1 := .host _ _ .reset

/-- FaultingStepWritesOnlyTheLatch. -/
theorem witness_faulting : (at0 0x00EE).fault = none ∧
    ∃ t, step (at0 0x00EE) = .next t ∧ t.fault = some .stackUnderflow :=
  ⟨by decide, _, eq_nextOf (by decide), by decide⟩

/-- StepOnlyRaisesDrawFlag, both clauses. -/
theorem witness_drawFlag :
    (∃ t, step (at0 0x6001) = .next t ∧ (at0 0x6001).drawFlag = true) ∧
    (∃ t, step (at0 0x00E0).drawAck = .next t ∧ t.drawFlag ≠ (at0 0x00E0).drawAck.drawFlag) :=
  ⟨⟨_, eq_nextOf (by decide), by decide⟩, ⟨_, eq_nextOf (by decide), by decide⟩⟩

/-- StepSendsAtMostOneOfEachEvent, with both events sent. -/
theorem witness_events : ∃ t, step { at0 0x0000 with soundTimer := 1 } = .next t ∧
    t.trace = [.unknownOpcode 0, .beep] := ⟨_, eq_nextOf (by decide), by decide⟩

/-- OnlyRndDraws, with a draw made and with none. -/
theorem witness_draws : (∃ t, step (at0 0xC30F) = .next t ∧ t.drawIndex = 1) ∧
    (∃ t, step (at0 0x6001) = .next t ∧ t.drawIndex = 0) :=
  ⟨⟨_, eq_nextOf (by decide), by decide⟩, ⟨_, eq_nextOf (by decide), by decide⟩⟩

/-- ParkedCoreStaysParked. -/
theorem witness_parked : (at0 0x1200).parked := ⟨by decide, by decide, 0x200, by decide, by decide⟩

/-- CanonicalMemoryIsItsBytes. -/
theorem witness_canonical : Memory.wf [(0, 1), (0xFFF, 9)] = true ∧
    ∀ a : Nat, a < 4096 → Memory.read [(0, 1), (0xFFF, 9)] a = Memory.read [(0, 1), (0xFFF, 9)] a :=
  ⟨by decide, fun _ _ => rfl⟩

/-- LoadProgramCopiesVerbatim, both clauses at their boundary, and a byte of the image. -/
theorem witness_load : (List.replicate 3584 (7 : Byte)).length ≤ 3584 ∧ 3583 < (List.replicate 3584 (7 : Byte)).length ∧
    3584 < (List.replicate 3585 (7 : Byte)).length := by simp only [List.length_replicate]; decide

/-- CallPushesItsOwnAddress: SP = 15 and SP = 16. -/
theorem witness_call : ({ State.reset with sp := 15 } : State).sp.toNat < 16 ∧
    ({ State.reset with sp := 16 } : State).sp.toNat = 16 := by decide

/-- RetPopsTheReturnAddress: SP = 1, SP = 16 and SP = 0. -/
theorem witness_ret : (1 ≤ ({ State.reset with sp := 1 } : State).sp.toNat ∧
      ({ State.reset with sp := 1 } : State).sp.toNat ≤ 16) ∧
    (1 ≤ ({ State.reset with sp := 16 } : State).sp.toNat ∧
      ({ State.reset with sp := 16 } : State).sp.toNat ≤ 16) ∧ State.reset.sp.toNat = 0 := by decide

/-- RetResumesAfterItsCall, at the last free slot. -/
theorem witness_retResumes : ({ State.reset with sp := 15 } : State).sp.toNat < 16 ∧
    ∃ t u : State, exec (.call 0x300) { State.reset with sp := 15 } = .next t ∧ u.stack = t.stack ∧ u.sp = t.sp ∧
      u.pc ≠ t.pc :=
  ⟨by decide, nextOf (exec (.call 0x300) { State.reset with sp := 15 }),
    { nextOf (exec (.call 0x300) { State.reset with sp := 15 }) with pc := 0x400 },
    eq_nextOf (by decide), rfl, rfl, by decide⟩

/-- CallAndRetStopWithoutASlot, at the lowest such SP. -/
theorem witness_stop : 16 < ({ State.reset with sp := 17 } : State).sp.toNat := by decide

/-- AddRegisters, SubtractRegisters and SubtractRegistersReversed: each of their four clauses; ShiftRight, ShiftLeft and
AddToIndex: each of their two. -/
theorem witness_registers : ((14 : RegId) ≠ 15 ∧ (0 : RegId) ≠ 15) ∧ ((15 : RegId) = 15 ∧ (14 : RegId) ≠ 15) ∧
    ((0 : RegId) ≠ 15 ∧ (15 : RegId) = 15) := by decide

/-- StoreDecimalDigits, with the last byte at 0xFFF. -/
theorem witness_bcd : (State.reset.setIndex 0xFFD).index.toNat + 2 ≤ 0xFFF := by decide

/-- StoreRegisters and LoadRegisters, with the last byte at 0xFFF. -/
theorem witness_moves : (State.reset.setIndex 0xFF0).index.toNat + (15 : RegId).val ≤ 0xFFF := by decide

/-- AccessOutsideMemoryFaults, at the first address past the end: FX33, then FX55 and FX65 with X = 0 and X = 15. -/
theorem witness_outside : 0xFFF < (State.reset.setIndex 0xFFE).index.toNat + 2 ∧
    0xFFF < (State.reset.setIndex 0x1000).index.toNat + (0 : RegId).val ∧
    0xFFF < (State.reset.setIndex 0xFF1).index.toNat + (15 : RegId).val := by decide

/-- StoreIsSeenByTheNextFetch: each clause's range at its last address, and stored bytes as each clause asks. -/
theorem witness_storeSeen :
    (let s := State.reset.setIndex 0xFF0
     let b : Nat → Byte := fun _ => 0
     s.index.toNat + (15 : RegId).val ≤ 0xFFF ∧ ∀ k : RegId, k ≤ 15 → b k.val = s.getV k) ∧
    (let s := (State.reset.setIndex 0xFFD).setV 4 255
     let b : Nat → Byte := fun k => if k = 0 then 2 else 5
     s.index.toNat + 2 ≤ 0xFFF ∧ (b 0).toNat = (s.getV 4).toNat / 100 ∧
       (b 1).toNat = (s.getV 4).toNat / 10 % 10 ∧ (b 2).toNat = (s.getV 4).toNat % 10) := by decide

/-- R62, the store of FX55 over both bytes, the first alone and the second alone of the next word (0x7001 there). -/
theorem test_storeSeen_stRegs :
    after (((((at0 0xF155).writeBytes 0x202 [0x70, 0x01]).setIndex 0x202).setV 0 0x62).setV 1 0x77)
      (fun t => t.fetchWord) = some 0x6277 ∧
    after (((((at0 0xF155).writeBytes 0x202 [0x70, 0x01]).setIndex 0x203).setV 0 0x62).setV 1 0x77)
      (fun t => t.fetchWord) = some 0x7062 ∧
    after ((((at0 0xF055).writeBytes 0x202 [0x70, 0x01]).setIndex 0x202).setV 0 0x62)
      (fun t => t.fetchWord) = some 0x6201 := by decide

/-- R62, the store of FX33 whose last digit is the first byte of the next word. -/
theorem test_storeSeen_ldB : after ((((at0 0xF433).writeBytes 0x202 [0x70, 0x01]).setIndex 0x200).setV 4 0x7B)
    (fun t => t.fetchWord) = some 0x0301 := by decide

/-- DrwXorsTheSprite: the sprite in the last column and rows with its last byte at 0xFFF, and N = 0 anywhere. -/
theorem witness_drw :
    (let s := ((State.reset.setIndex 0xFF1).setV 0 56).setV 1 17
     s.index.toNat + (15 : Nibble).toNat - 1 ≤ 0xFFF ∧ (s.getV 0).toNat ≤ 56 ∧
       (s.getV 1).toNat + (15 : Nibble).toNat ≤ 32) ∧
    (0 : Nibble).toNat = 0 := by decide

/-- DrwXorsTheSprite, its two clauses on VF: a draw that turns a pixel off, and one that turns none off. -/
theorem witness_drw_vf :
    (let s : State := { (at0 0xD011).setIndex 0x300 with framebuffer := (Vector.replicate 32 0).set 0 2 }
     let t := nextOf (exec (.drw 0 1 1) (s.writeByte 0x300 0xC0))
     let u := nextOf (exec (.drw 0 1 1) (s.writeByte 0x300 0x80))
     s.framebuffer.pixel 1 0 = true ∧ t.framebuffer.pixel 1 0 = false ∧ u.framebuffer = s.framebuffer.flip 0 0) := by
  decide

/-- DrwFaultsMemoryFirst: the first clause also where the grid check fails, and the second at both its edges. -/
theorem witness_drwFaults :
    1 ≤ (2 : Nibble).toNat ∧ 0xFFF < (State.reset.setIndex 0xFFF).index.toNat + (2 : Nibble).toNat - 1 ∧
    (State.reset.setIndex 0xFFE).index.toNat + (2 : Nibble).toNat - 1 ≤ 0xFFF ∧
    56 < (((State.reset.setIndex 0xFFE).setV 0 57).getV 0).toNat ∧
    32 < (((State.reset.setIndex 0xFFE).setV 1 31).getV 1).toNat + (2 : Nibble).toNat := by decide

/-- The start of the double draw: one sprite row over a pixel that is on. -/
def beforeDraw : State :=
  { ((at0 0xD231).setIndex 0x300).writeByte 0x300 0xC0 with framebuffer := (Vector.replicate 32 0).set 0 2 }

/-- DoubleDrawRestoresTheFrame. -/
theorem witness_doubleDraw : beforeDraw.fault = none ∧ ∃ t u : State, exec (.drw 2 3 1) beforeDraw = .next t ∧
    t.fault = none ∧ u.framebuffer = t.framebuffer ∧ u.getV 2 = beforeDraw.getV 2 ∧ u.getV 3 = beforeDraw.getV 3 ∧
    u.index = beforeDraw.index ∧
    ∀ k : Nat, k < (1 : Nibble).toNat →
      u.readByte (beforeDraw.index.toNat + k) = beforeDraw.readByte (beforeDraw.index.toNat + k) :=
  ⟨by decide, nextOf (exec (.drw 2 3 1) beforeDraw),
    { beforeDraw with framebuffer := (nextOf (exec (.drw 2 3 1) beforeDraw)).framebuffer },
    eq_nextOf (by decide), by decide, rfl, rfl, rfl, rfl, fun _ _ => rfl⟩

/-- SkipsOnKey: V[X] = 15 and V[X] = 16. -/
theorem witness_skipsOnKey : ((State.reset.setV 2 15).getV 2).toNat ≤ 15 ∧
    15 < ((State.reset.setV 2 16).getV 2).toNat := by decide

/-- AwaitKeyTakesTheLowestKey: key 15 alone. -/
theorem witness_awaitKey : ({ State.reset with keypad := 0x8000 } : State).keypad.getLsbD 15 = true ∧
    ∀ j : Nat, j < 15 → ({ State.reset with keypad := 0x8000 } : State).keypad.getLsbD j = false := by decide

/-- WaitingStepChangesNothing. -/
theorem witness_waiting : (at0 0xF50A).fault = none ∧ (at0 0xF50A).pc.toNat ≤ 0xFFE ∧
    decode (at0 0xF50A).fetchWord = .ok (.ldVxK 5) ∧ (at0 0xF50A).keypad = 0 := by decide

/-- TimerWritesTickInTheirOwnStep: each of its three clauses. -/
theorem witness_timerWrites : (at0 0xF315).fault = none ∧ (at0 0xF315).pc.toNat ≤ 0xFFE ∧
    decode (at0 0xF315).fetchWord = .ok (.ldDTVx 3) ∧ decode (at0 0xF318).fetchWord = .ok (.ldSTVx 3) ∧
    decode (at0 0xF307).fetchWord = .ok (.ldVxDT 3) := by decide

end Sys2Proof.Tests
end

section
/-! SUPPORT. The invariant of R37 (b), (c), (d) with the canonical form of memory: every operation, every instruction,
every step and every host move keeps it, a step from it answers, and so it holds of every run. -/

namespace Sys2Proof.Machine

/-! The invariant reads memory, SP, the stack, PC and the latch only. -/

/-- A state with the memory, SP and stack of one that meets the invariant needs only its own bound on PC. -/
theorem State.Inv.of_kept {s t : State} (hs : s.Inv) (hmem : t.mem = s.mem) (hsp : t.sp = s.sp)
    (hstack : t.stack = s.stack) (hpc : t.fault = none → t.pc.toNat ≤ 0x10FE) : t.Inv where
  memWf := hmem ▸ hs.memWf
  spLe := hsp ▸ hs.spLe
  stackLe := hstack ▸ hs.stackLe
  pcLe := hpc

/-- R37 (d)'s bound is the largest 12-bit address plus the largest byte; no assignment of PC goes past it. -/
theorem add_toNat_le_pcBound {w d : Word} (hw : w.toNat ≤ 0xFFF) (hd : d.toNat ≤ 0xFF) :
    (w + d).toNat ≤ 0x10FE := by
  rw [BitVec.toNat_add]
  omega

theorem zextNNN_toNat_le (nnn : Imm12) : (zextNNN nnn).toNat ≤ 0xFFF := by
  have := nnn.isLt
  simp only [zextNNN, BitVec.toNat_setWidth]
  omega

theorem zextByte_toNat_le (b : Byte) : (zextByte b).toNat ≤ 0xFF := by
  have := b.isLt
  simp only [zextByte, BitVec.toNat_setWidth]
  omega

theorem State.fetchable_iff {s : State} : s.fetchable = true ↔ s.pc.toNat ≤ 0xFFE := decide_eq_true_iff

/-! The shared operations. -/

theorem State.Inv.raise {s : State} (hs : s.Inv) (c : MachineFault) : (s.raise c).Inv :=
  hs.of_kept rfl rfl rfl nofun

theorem State.Inv.timerPhase {s : State} (hs : s.Inv) : s.timerPhase.Inv := hs.of_kept rfl rfl rfl hs.pcLe

theorem State.Inv.jumpTo {s : State} (hs : s.Inv) {w : Word} (hw : w.toNat ≤ 0x10FE) : (s.jumpTo w).Inv :=
  hs.of_kept rfl rfl rfl fun _ => hw

theorem State.Inv.skipIf {s : State} (hs : s.Inv) (hpc : s.pc.toNat ≤ 0xFFE) (c : Bool) : (s.skipIf c).Inv :=
  hs.of_kept rfl rfl rfl fun _ => add_toNat_le_pcBound (by omega) (by cases c <;> decide)

/-- An instruction that writes none of what the invariant reads, and then goes on to PC + 2. -/
theorem State.Inv.advance_of_kept {s u : State} (hs : s.Inv) (hpc : s.pc.toNat ≤ 0xFFE) (hmem : u.mem = s.mem)
    (hsp : u.sp = s.sp) (hstack : u.stack = s.stack) (hupc : u.pc = s.pc) : u.advance.Inv :=
  hs.of_kept hmem hsp hstack fun _ => add_toNat_le_pcBound (by rw [hupc]; omega) (by decide)

@[simp] theorem State.writeBytes_pc (s : State) (a : Nat) (bs : List Byte) : (s.writeBytes a bs).pc = s.pc := by
  obtain ⟨m, hm⟩ := s.writeBytes_eq a bs
  rw [hm]

/-- A store inside memory keeps the canonical form, and changes nothing else. -/
theorem State.Inv.writeBytes {s : State} (hs : s.Inv) {a : Nat} {bs : List Byte}
    (h : bs = [] ∨ a + bs.length ≤ Config.memSize) : (s.writeBytes a bs).Inv := by
  have hwf := State.writeBytes_wf hs.memWf h
  obtain ⟨m, hm⟩ := s.writeBytes_eq a bs
  rw [hm] at hwf ⊢
  exact ⟨hwf, hs.spLe, hs.stackLe, hs.pcLe⟩

/-- The range check made before the first write is the one the store needs (R130, D5). -/
theorem State.Inv.writeBytes_base {s : State} (hs : s.Inv) {bs : List Byte}
    (hr : s.rangeInMemory bs.length = true) : (s.writeBytes s.base bs).Inv :=
  hs.writeBytes ((decide_eq_true_iff.mp hr).imp_left List.length_eq_zero_iff.mp)

/-- A pushed word joins the slots that already meet the bound, and SP counts it. -/
theorem State.Inv.push {s t : State} (hs : s.Inv) {w : Word} (hw : w.toNat ≤ 0xFFE) (h : s.push w = some t) :
    t.Inv := by
  obtain ⟨hlt, hp⟩ | ⟨-, hp⟩ := s.push_cases w
  · cases hp.symm.trans h
    refine ⟨hs.memWf, ?_, fun k => ?_, hs.pcLe⟩
    · show (s.sp + 1).toNat ≤ 16
      bv_omega
    · simp only [Fin.getElem_fin, Vector.getElem_set]
      split
      · exact hw
      · exact hs.stackLe k
  · cases hp.symm.trans h

/-- A pop gives a word within the bound of the slots, and leaves SP on a slot. -/
theorem State.Inv.pop {s t : State} (hs : s.Inv) {w : Word} (h : s.pop = some (w, t)) :
    w.toNat ≤ 0xFFE ∧ t.Inv := by
  obtain ⟨hlt, hp⟩ | ⟨-, hp⟩ := s.pop_cases
  · cases hp.symm.trans h
    exact ⟨hs.stackLe ⟨_, hlt⟩, hs.memWf, hlt.le, hs.stackLe, hs.pcLe⟩
  · cases hp.symm.trans h

/-! Instructions: the two shapes of a check before the first write, then the instructions that need an argument of
their own. -/

section
variable {s t : State} (hs : s.Inv) (hpc : s.pc.toNat ≤ 0xFFE)
include hs

/-- A check that raises a fault where `p` holds leaves the rest to show where it does not. -/
theorem State.Inv.raise_or {p : Prop} [Decidable p] {c : MachineFault} {o : Out}
    (ho : ¬ p → o = .next t → t.Inv) (h : (if p then .next (s.raise c) else o) = .next t) : t.Inv := by
  split at h
  · cases h
    exact hs.raise c
  next hp => exact ho hp h

/-- The range check of FX33, FX55 and FX65 leaves the state after the accesses to show, where they lie in memory. -/
theorem State.Inv.if_range {n : Nat} {c : MachineFault} {u : State} (hu : s.rangeInMemory n = true → u.Inv)
    (h : (if s.rangeInMemory n then .next u else .next (s.raise c) : Out) = .next t) : t.Inv := by
  split at h
  next hr =>
    cases h
    exact hu hr
  next =>
    cases h
    exact hs.raise c

theorem execRet_keeps_inv (h : execRet s = .next t) : t.Inv := by
  refine hs.raise_or (fun _ h => ?_) h
  split at h
  next w u hpop =>
    cases h
    obtain ⟨hw, hu⟩ := hs.pop hpop
    exact hu.jumpTo (add_toNat_le_pcBound (by omega) (by decide))
  next => cases h

include hpc

theorem execCall_keeps_inv {nnn : Imm12} (h : execCall nnn s = .next t) : t.Inv := by
  refine hs.raise_or (fun _ h => ?_) h
  split at h
  next u hpush =>
    cases h
    exact (hs.push hpc hpush).jumpTo ((zextNNN_toNat_le nnn).trans (by decide))
  next => cases h

theorem execDrw_keeps_inv {x y : RegId} {n : Nibble} (h : execDrw x y n s = .next t) : t.Inv := by
  refine hs.raise_or (fun _ => hs.raise_or fun _ h => ?_) h
  cases h
  exact hs.advance_of_kept hpc rfl rfl rfl rfl

theorem execLdVxK_keeps_inv {x : RegId} (h : execLdVxK x s = .next t) : t.Inv := by
  unfold execLdVxK at h
  split at h
  · cases h
    exact hs.advance_of_kept hpc rfl rfl rfl rfl
  · cases h
    exact hs

theorem execLdB_keeps_inv {x : RegId} (h : execLdB x s = .next t) : t.Inv := by
  refine hs.if_range (fun hr => ?_) h
  have hu : (s.writeBytes s.base (bcdDigits (s.getV x))).Inv := hs.writeBytes_base hr
  exact hu.advance_of_kept (by rwa [State.writeBytes_pc]) rfl rfl rfl rfl

theorem execStRegs_keeps_inv {x : RegId} (h : execStRegs x s = .next t) : t.Inv := by
  refine hs.if_range (fun hr => ?_) h
  have hu : (s.writeBytes s.base (s.regsUpTo x)).Inv := hs.writeBytes_base (by rwa [State.regsUpTo_length])
  exact hu.advance_of_kept (by rwa [State.writeBytes_pc]) rfl rfl rfl rfl

theorem execLdRegs_keeps_inv {x : RegId} (h : execLdRegs x s = .next t) : t.Inv := by
  refine hs.if_range (fun _ => ?_) h
  exact hs.advance_of_kept hpc (by simp) (by simp) (by simp) (by simp)

/-- Every instruction fetched from memory keeps the invariant. -/
theorem exec_keeps_inv {i : Instr} (h : exec i s = .next t) : t.Inv := by
  cases i
  case ret => exact execRet_keeps_inv hs h
  case call => exact execCall_keeps_inv hs hpc h
  case drw => exact execDrw_keeps_inv hs hpc h
  case ldVxK => exact execLdVxK_keeps_inv hs hpc h
  case ldB => exact execLdB_keeps_inv hs hpc h
  case stRegs => exact execStRegs_keeps_inv hs hpc h
  case ldRegs => exact execLdRegs_keeps_inv hs hpc h
  case skp | sknp =>
    refine hs.raise_or (fun _ h => ?_) h
    cases h
    exact hs.skipIf hpc _
  case jp nnn =>
    cases h
    exact hs.jumpTo ((zextNNN_toNat_le nnn).trans (by decide))
  case jpV0 nnn =>
    cases h
    exact hs.jumpTo (add_toNat_le_pcBound (zextNNN_toNat_le nnn) (zextByte_toNat_le _))
  case seImm | sneImm | seReg | sneReg =>
    cases h
    exact hs.skipIf hpc _
  case cls | ldImm | addImm | ldReg | orReg | andReg | xorReg | addReg | subReg | shr | subnReg | shl | rnd | ldI |
      addI | ldF | ldVxDT | ldDTVx | ldSTVx =>
    cases h
    exact hs.advance_of_kept hpc rfl rfl rfl rfl

end

/-! Steps, host moves and runs. -/

theorem afterExec_keeps_inv {u : State} (hu : u.Inv) (i : Instr) (s : State) : (afterExec i s u).Inv := by
  unfold afterExec
  split
  · exact hu
  · exact hu.timerPhase

/-- Every step that answers keeps the invariant. -/
theorem step_keeps_inv {s t : State} (hs : s.Inv) (h : step s = .next t) : t.Inv := by
  obtain ⟨-, rfl⟩ | ⟨-, -, rfl⟩ | ⟨-, hf, -, rfl⟩ | ⟨-, hf, i, u, -, hu, rfl⟩ := step_cases h
  · exact hs
  · exact hs.raise _
  · exact (hs.advance_of_kept (u := s.emit _) (State.fetchable_iff.mp hf) rfl rfl rfl rfl).timerPhase
  · exact afterExec_keeps_inv (exec_keeps_inv hs (State.fetchable_iff.mp hf) hu) i s

/-- A step stops only where an instruction does, so it answers wherever SP names a slot or the full stack. -/
theorem step_answers (s : State) (hsp : s.sp.toNat ≤ 16) : ∃ t, step s = .next t := by
  unfold step
  split
  · exact ⟨_, rfl⟩
  · split
    · exact ⟨_, rfl⟩
    · split
      · exact ⟨_, rfl⟩
      next i _ =>
        obtain ⟨u, hu⟩ := exec_answers i s hsp
        exact ⟨_, by rw [hu]⟩

theorem State.reset_inv : State.reset.Inv := ⟨State.reset_wf, by decide, by decide, by decide⟩

/-- The largest image `loadProgram` copies ends where memory does (R65). -/
theorem State.Inv.loadProgram {s : State} (hs : s.Inv) (bytes : List Byte) : (s.loadProgram bytes).1.Inv := by
  unfold State.loadProgram
  split
  · exact hs
  next hlen =>
    refine hs.writeBytes (.inr ?_)
    simp only [Config.progBase, Config.progMax, Config.memSize] at hlen ⊢
    omega

theorem hostMove_keeps_inv {s : State} (hs : s.Inv) (m : HostMove) : (hostMove m s).1.Inv := by
  cases m with
  | restart => exact State.reset_inv.of_kept rfl rfl rfl State.reset_inv.pcLe
  | load bytes => exact hs.loadProgram bytes
  | keys k => exact hs.of_kept rfl rfl rfl hs.pcLe
  | drawAck => exact hs.of_kept rfl rfl rfl hs.pcLe
  | readFrame | readState | stop => exact hs

/-- The invariant holds after reset and every step and host move keeps it, so it holds all along every run. -/
theorem Reachable.inv {s : State} (h : Reachable s) : s.Inv := by
  induction h with
  | reset => exact State.reset_inv
  | step _ _ _ hstep ih => exact step_keeps_inv ih hstep
  | host _ m _ ih => exact hostMove_keeps_inv ih m

/-- Settles O17: the invariant holds along every run, and its bound on SP is what lets the next step answer. -/
theorem reachableStatesMeetTheInvariantAndStepOn : Obligations.ReachableStatesMeetTheInvariantAndStepOn :=
  fun s h => ⟨h.inv, step_answers s h.inv.spLe⟩

end Sys2Proof.Machine
end

section
/-! SUPPORT. The statements of the family of spec/10_state.md: what an instruction and a step leave in the keypad port,
the trace, `drawFlag` and the counter of draws; the return from a call; canonical memory; reset and restart. -/

namespace Sys2Proof.Machine

/-! The invariant. -/

/-- Settles O14: the bound on SP lets the step answer, and every step that answers keeps the invariant. -/
theorem stepKeepsTheInvariant : Obligations.StepKeepsTheInvariant := by
  intro s hs
  obtain ⟨t, ht⟩ := step_answers s hs.spLe
  exact ⟨t, ht, step_keeps_inv hs ht⟩

/-- Settles O15, whose four bounds are checked on the reset state. -/
theorem resetMeetsTheInvariant : Obligations.ResetMeetsTheInvariant := State.reset_inv

/-- Settles O16, by the cases of the host move. -/
theorem hostMovesKeepTheInvariant : Obligations.HostMovesKeepTheInvariant :=
  fun m _ hs => hostMove_keeps_inv hs m

/-! A store of several bytes, field by field. -/

section
variable (s : State) (a : Nat) (bs : List Byte)

@[simp] theorem State.writeBytes_fault : (s.writeBytes a bs).fault = s.fault := by
  obtain ⟨m, hm⟩ := s.writeBytes_eq a bs
  rw [hm]

@[simp] theorem State.writeBytes_keypad : (s.writeBytes a bs).keypad = s.keypad := by
  obtain ⟨m, hm⟩ := s.writeBytes_eq a bs
  rw [hm]

@[simp] theorem State.writeBytes_trace : (s.writeBytes a bs).trace = s.trace := by
  obtain ⟨m, hm⟩ := s.writeBytes_eq a bs
  rw [hm]

@[simp] theorem State.writeBytes_drawFlag : (s.writeBytes a bs).drawFlag = s.drawFlag := by
  obtain ⟨m, hm⟩ := s.writeBytes_eq a bs
  rw [hm]

@[simp] theorem State.writeBytes_drawIndex : (s.writeBytes a bs).drawIndex = s.drawIndex := by
  obtain ⟨m, hm⟩ := s.writeBytes_eq a bs
  rw [hm]

end

/-! What the branching instructions can answer. -/

section
variable {s t : State}

/-- A check that raises a fault where `p` holds answers that fault, or what comes after the check. -/
theorem raise_or_cases {p : Prop} [Decidable p] {c : MachineFault} {o : Out}
    (h : (if p then .next (s.raise c) else o) = .next t) : (p ∧ t = s.raise c) ∨ (¬ p ∧ o = .next t) := by
  split at h
  next hp =>
    cases h
    exact .inl ⟨hp, rfl⟩
  next hp => exact .inr ⟨hp, h⟩

/-- The range check of FX33, FX55 and FX65 answers the accesses' own state, or MemoryOutOfRange. -/
theorem if_range_cases {p : Bool} {c : MachineFault} {u : State}
    (h : (if p then .next u else .next (s.raise c) : Out) = .next t) :
    (p = true ∧ t = u) ∨ (p = false ∧ t = s.raise c) := by
  cases p <;> cases h
  · exact .inr ⟨rfl, rfl⟩
  · exact .inl ⟨rfl, rfl⟩

/-- Everything a RET that answers can have done. -/
theorem execRet_cases (h : execRet s = .next t) :
    (s.sp = 0 ∧ t = s.raise .stackUnderflow) ∨
    (s.sp ≠ 0 ∧ ∃ hlt : (s.sp - 1).toNat < 16,
      t = { s with sp := s.sp - 1 }.jumpTo (s.stack[(s.sp - 1).toNat] + 2)) := by
  refine (raise_or_cases h).imp_right fun ⟨hsp, h⟩ => ⟨hsp, ?_⟩
  obtain ⟨hlt, hp⟩ | ⟨-, hp⟩ := s.pop_cases
  · rw [hp] at h
    cases h
    exact ⟨hlt, rfl⟩
  · rw [hp] at h
    cases h

/-- Everything a CALL that answers can have done. -/
theorem execCall_cases {nnn : Imm12} (h : execCall nnn s = .next t) :
    (s.sp = 16 ∧ t = s.raise .stackOverflow) ∨
    (s.sp ≠ 16 ∧ ∃ hlt : s.sp.toNat < 16,
      t = { s with stack := s.stack.set s.sp.toNat s.pc, sp := s.sp + 1 }.jumpTo (zextNNN nnn)) := by
  refine (raise_or_cases h).imp_right fun ⟨hsp, h⟩ => ⟨hsp, ?_⟩
  obtain ⟨hlt, hp⟩ | ⟨-, hp⟩ := s.push_cases s.pc
  · rw [hp] at h
    cases h
    exact ⟨hlt, rfl⟩
  · rw [hp] at h
    cases h

/-- Everything a DXYN that answers can have done. -/
theorem execDrw_cases {x y : RegId} {n : Nibble} (h : execDrw x y n s = .next t) :
    (∃ c, t = s.raise c) ∨ t = (s.drawSprite (s.getV x).toNat (s.getV y).toNat n.toNat).advance := by
  obtain ⟨-, ht⟩ | ⟨-, h⟩ := raise_or_cases h
  · exact .inl ⟨_, ht⟩
  obtain ⟨-, ht⟩ | ⟨-, h⟩ := raise_or_cases h
  · exact .inl ⟨_, ht⟩
  · cases h
    exact .inr rfl

end

/-! The keypad port, the trace, `drawFlag` and the counter of draws (R30, R31, R33, R34). -/

/-- What `i` may leave in the parts through which the host and the core meet: the keypad and the trace as they were,
`drawFlag` set only by the display instructions, one draw counted only by CXNN. -/
structure PortsAfter (i : Instr) (s t : State) : Prop where
  keypad : t.keypad = s.keypad
  trace : t.trace = s.trace
  drawFlag : t.drawFlag = s.drawFlag ∨ (t.drawFlag = true ∧ (i = .cls ∨ ∃ x y n, i = .drw x y n))
  draws : t.drawIndex = s.drawIndex ∨ (t.drawIndex = s.drawIndex + 1 ∧ ∃ x nn, i = .rnd x nn)

theorem PortsAfter.of_kept {i : Instr} {s t : State} (hkeypad : t.keypad = s.keypad) (htrace : t.trace = s.trace)
    (hflag : t.drawFlag = s.drawFlag) (hdraws : t.drawIndex = s.drawIndex) : PortsAfter i s t :=
  ⟨hkeypad, htrace, .inl hflag, .inl hdraws⟩

theorem exec_ports {i : Instr} {s t : State} (h : exec i s = .next t) : PortsAfter i s t := by
  cases i
  case cls =>
    cases h
    exact ⟨rfl, rfl, .inr ⟨rfl, .inl rfl⟩, .inl rfl⟩
  case drw x y n =>
    obtain ⟨c, rfl⟩ | rfl := execDrw_cases h
    · exact .of_kept rfl rfl rfl rfl
    · exact ⟨rfl, rfl, .inr ⟨rfl, .inr ⟨x, y, n, rfl⟩⟩, .inl rfl⟩
  case rnd x nn =>
    cases h
    exact ⟨rfl, rfl, .inl rfl, .inr ⟨rfl, x, nn, rfl⟩⟩
  case ret =>
    obtain ⟨-, rfl⟩ | ⟨-, -, rfl⟩ := execRet_cases h <;> exact .of_kept rfl rfl rfl rfl
  case call =>
    obtain ⟨-, rfl⟩ | ⟨-, -, rfl⟩ := execCall_cases h <;> exact .of_kept rfl rfl rfl rfl
  case ldVxK x =>
    simp only [exec, execLdVxK] at h
    split at h <;> cases h <;> exact .of_kept rfl rfl rfl rfl
  case skp | sknp =>
    obtain ⟨-, rfl⟩ | ⟨-, h⟩ := raise_or_cases h
    · exact .of_kept rfl rfl rfl rfl
    · cases h
      exact .of_kept rfl rfl rfl rfl
  case ldB | stRegs | ldRegs =>
    obtain ⟨-, rfl⟩ | ⟨-, rfl⟩ := if_range_cases h
    · exact .of_kept (by simp) (by simp) (by simp) (by simp)
    · exact .of_kept rfl rfl rfl rfl
  case jp | jpV0 | seImm | sneImm | seReg | sneReg | ldImm | addImm | ldReg | orReg | andReg | xorReg | addReg |
      subReg | shr | subnReg | shl | ldI | addI | ldF | ldVxDT | ldDTVx | ldSTVx =>
    cases h
    exact .of_kept rfl rfl rfl rfl

section
variable (i : Instr) (s t : State)

@[simp] theorem afterExec_keypad : (afterExec i s t).keypad = t.keypad := by
  unfold afterExec
  split <;> rfl

@[simp] theorem afterExec_drawFlag : (afterExec i s t).drawFlag = t.drawFlag := by
  unfold afterExec
  split <;> rfl

@[simp] theorem afterExec_drawIndex : (afterExec i s t).drawIndex = t.drawIndex := by
  unfold afterExec
  split <;> rfl

/-- The timer phase sends one Beep or nothing (R177). -/
theorem State.timerPhase_sends :
    ∃ beep : List Event, s.timerPhase.trace = s.trace ++ beep ∧ (beep = [] ∨ beep = [.beep]) := by
  rw [State.timerPhase_trace]
  split
  · exact ⟨[.beep], rfl, .inr rfl⟩
  · exact ⟨[], by simp, .inl rfl⟩

theorem afterExec_sends :
    ∃ beep : List Event, (afterExec i s t).trace = t.trace ++ beep ∧ (beep = [] ∨ beep = [.beep]) := by
  unfold afterExec
  split
  · exact ⟨[], by simp, .inl rfl⟩
  · exact t.timerPhase_sends

end

section
variable {s t : State} (h : step s = .next t)
include h

theorem step_keypad : t.keypad = s.keypad := by
  obtain ⟨-, rfl⟩ | ⟨-, -, rfl⟩ | ⟨-, -, -, rfl⟩ | ⟨-, -, i, u, -, hu, rfl⟩ := step_cases h
  · rfl
  · rfl
  · rfl
  · rw [afterExec_keypad, (exec_ports hu).keypad]

theorem step_drawFlag : t.drawFlag = s.drawFlag ∨
    (t.drawFlag = true ∧ (decode s.fetchWord = .ok .cls ∨ ∃ x y n, decode s.fetchWord = .ok (.drw x y n))) := by
  obtain ⟨-, rfl⟩ | ⟨-, -, rfl⟩ | ⟨-, -, -, rfl⟩ | ⟨-, -, i, u, hi, hu, rfl⟩ := step_cases h
  · exact .inl rfl
  · exact .inl rfl
  · exact .inl rfl
  · simp only [afterExec_drawFlag, hi, Except.ok.injEq]
    exact (exec_ports hu).drawFlag

theorem step_drawIndex : t.drawIndex = s.drawIndex ∨
    (t.drawIndex = s.drawIndex + 1 ∧ ∃ x nn, decode s.fetchWord = .ok (.rnd x nn)) := by
  obtain ⟨-, rfl⟩ | ⟨-, -, rfl⟩ | ⟨-, -, -, rfl⟩ | ⟨-, -, i, u, hi, hu, rfl⟩ := step_cases h
  · exact .inl rfl
  · exact .inl rfl
  · exact .inl rfl
  · simp only [afterExec_drawIndex, hi, Except.ok.injEq]
    exact (exec_ports hu).draws

/-- The diagnostic is sent before the timer phase, so it comes before the Beep (R173). -/
theorem step_sends : ∃ diag beep : List Event, t.trace = s.trace ++ diag ++ beep ∧
    (diag = [] ∨ diag = [.unknownOpcode s.fetchWord] ∧ ∃ e, decode s.fetchWord = .error e) ∧
    (beep = [] ∨ beep = [.beep]) := by
  obtain ⟨-, rfl⟩ | ⟨-, -, rfl⟩ | ⟨-, -, he, rfl⟩ | ⟨-, -, i, u, -, hu, rfl⟩ := step_cases h
  · exact ⟨[], [], by simp, .inl rfl, .inl rfl⟩
  · exact ⟨[], [], by simp, .inl rfl, .inl rfl⟩
  · obtain ⟨beep, htrace, hbeep⟩ := (s.reportUnknown s.fetchWord).timerPhase_sends
    exact ⟨_, beep, htrace, .inr ⟨rfl, he⟩, hbeep⟩
  · obtain ⟨beep, htrace, hbeep⟩ := afterExec_sends i s u
    exact ⟨[], beep, by rw [htrace, (exec_ports hu).trace, List.append_nil], .inl rfl, hbeep⟩

end

/-- Settles O20: where the flag is not as it was, a display instruction set it. -/
theorem stepOnlyRaisesDrawFlag : Obligations.StepOnlyRaisesDrawFlag := by
  intro s t h
  obtain hkept | ⟨hset, hdisplay⟩ := step_drawFlag h
  · exact ⟨fun hs => hkept.trans hs, fun hne => absurd hkept hne⟩
  · exact ⟨fun _ => hset, fun _ => hdisplay⟩

/-- Settles O21, from the two laws of the step on the keypad and on what it sends. -/
theorem stepSendsAtMostOneOfEachEvent : Obligations.StepSendsAtMostOneOfEachEvent :=
  fun _ _ h => ⟨step_keypad h, step_sends h⟩

/-- Settles O22, from the law of the step on the counter of draws. -/
theorem onlyRndDraws : Obligations.OnlyRndDraws := fun _ _ h => step_drawIndex h

/-! The fault latch (R32, R163, R174). -/

theorem step_of_halted {s t : State} (hf : s.fault ≠ none) (h : step s = .next t) : t = s := by
  obtain ⟨-, rfl⟩ | ⟨hn, -⟩ | ⟨hn, -⟩ | ⟨hn, -⟩ := step_cases h
  · rfl
  all_goals exact absurd hn hf

@[simp] theorem State.loadProgram_fault (s : State) (bytes : List Byte) :
    (s.loadProgram bytes).1.fault = s.fault := by
  unfold State.loadProgram
  split
  · rfl
  · exact s.writeBytes_fault _ bytes

theorem hostMove_fault {m : HostMove} (hm : m ≠ .restart) (s : State) : (hostMove m s).1.fault = s.fault := by
  cases m with
  | restart => exact absurd rfl hm
  | load bytes => exact s.loadProgram_fault bytes
  | keys | readFrame | drawAck | readState | stop => rfl

/-- Settles O19: a halted step changes nothing, and of the host moves only the reset writes the latch. -/
theorem onlyRestartClearsTheLatch : Obligations.OnlyRestartClearsTheLatch := by
  intro s c hc
  have hf : s.fault ≠ none := by simp [hc]
  refine ⟨fun t h => ?_, fun m hm => ?_, rfl⟩
  · rw [step_of_halted hf h, hc]
  · rw [hostMove_fault hm, hc]

/-! A call and its return (R24, R101, R103). -/

/-- Settles O33: the RET pops the slot the CALL wrote, which holds the address of the CALL. -/
theorem retResumesAfterItsCall : Obligations.RetResumesAfterItsCall := by
  intro nnn s t u hfree hcall hstack hsp
  obtain ⟨hfull, -⟩ | ⟨-, hlt, rfl⟩ := execCall_cases hcall
  · simp [hfull] at hfree
  simp only [State.jumpTo_stack, State.jumpTo_sp] at hstack hsp
  have hdepth : u.sp.toNat = s.sp.toNat + 1 := by bv_omega
  have hslot : u.sp - 1 = s.sp := by bv_omega
  obtain ⟨w, hret⟩ := exec_answers .ret u (by omega)
  refine ⟨w, hret, ?_⟩
  obtain ⟨hempty, -⟩ | ⟨-, _, rfl⟩ := execRet_cases hret
  · simp [hempty] at hdepth
  · have htop : u.stack[(u.sp - 1).toNat] = s.pc := by simp only [hslot, hstack, Vector.getElem_set_self]
    exact ⟨congrArg (· + 2) htop, hslot⟩

/-! Canonical memory (log entry 13). -/

theorem Memory.wfFrom_cons {lo k : Nat} {b : Byte} {m : Memory} :
    Memory.wfFrom lo ((k, b) :: m) = true ↔
      lo ≤ k ∧ k < 4096 ∧ b ≠ resetByte k ∧ Memory.wfFrom (k + 1) m = true := by
  simp [Memory.wfFrom, and_assoc]

theorem Memory.read_cons_self (k : Nat) (b : Byte) (m : Memory) : Memory.read ((k, b) :: m) k = b := if_pos rfl

theorem Memory.read_cons_ne {k a : Nat} (h : k ≠ a) (b : Byte) (m : Memory) :
    Memory.read ((k, b) :: m) a = m.read a := if_neg h

/-- Below its first listed address a memory reads as its reset contents. -/
theorem Memory.read_of_lt {lo a : Nat} {m : Memory} (wf : Memory.wfFrom lo m = true) (h : a < lo) :
    m.read a = resetByte a := by
  induction m generalizing lo with
  | nil => rfl
  | cons cell m ih =>
    obtain ⟨hlo, -, -, hm⟩ := Memory.wfFrom_cons.mp wf
    rw [Memory.read_cons_ne (by omega)]
    exact ih hm (by omega)

/-- A canonical memory lists an address at or below every one that does not read as its reset contents. -/
theorem Memory.head_le_of_read_ne {lo k a : Nat} {b : Byte} {m : Memory}
    (wf : Memory.wfFrom lo ((k, b) :: m) = true) (h : Memory.read ((k, b) :: m) a ≠ resetByte a) : k ≤ a := by
  obtain ⟨-, hk, hb, hm⟩ := Memory.wfFrom_cons.mp wf
  by_contra hlt
  exact h (Memory.read_of_lt (Memory.wfFrom_cons.mpr ⟨le_rfl, hk, hb, hm⟩) (by omega))

/-- Canonical memories from a common bound are determined by their bytes. -/
theorem Memory.eq_of_read_eq {lo : Nat} {m n : Memory} (hm : Memory.wfFrom lo m = true)
    (hn : Memory.wfFrom lo n = true) (h : ∀ a : Nat, a < 4096 → m.read a = n.read a) : m = n := by
  induction m generalizing lo n with
  | nil =>
    cases n with
    | nil => rfl
    | cons cell n =>
      obtain ⟨-, hk, hb, -⟩ := Memory.wfFrom_cons.mp hn
      exact absurd ((Memory.read_cons_self _ _ n).symm.trans (h _ hk).symm) hb
  | cons cell m ih =>
    obtain ⟨k, b⟩ := cell
    obtain ⟨-, hk, hb, hm'⟩ := Memory.wfFrom_cons.mp hm
    have hbk : n.read k = b := by rw [← h k hk, Memory.read_cons_self]
    cases n with
    | nil => exact absurd hbk.symm hb
    | cons cell n =>
      obtain ⟨l, c⟩ := cell
      obtain ⟨-, hl, hc, hn'⟩ := Memory.wfFrom_cons.mp hn
      have hcl : Memory.read ((k, b) :: m) l = c := by rw [h l hl, Memory.read_cons_self]
      obtain rfl : k = l := le_antisymm (Memory.head_le_of_read_ne hm (hcl ▸ hc))
        (Memory.head_le_of_read_ne hn (hbk ▸ hb))
      obtain rfl : b = c := hbk.symm.trans (Memory.read_cons_self _ _ n)
      congr 1
      refine ih hm' hn' fun a ha => ?_
      by_cases hka : k = a
      · rw [Memory.read_of_lt hm' (by omega), Memory.read_of_lt hn' (by omega)]
      · rw [← Memory.read_cons_ne hka b m, ← Memory.read_cons_ne hka b n, h a ha]

/-- Settles O24, by induction on the lists: equal bytes force the lowest listed addresses to be equal. -/
theorem canonicalMemoryIsItsBytes : Obligations.CanonicalMemoryIsItsBytes :=
  fun _ _ hm hn h => Memory.eq_of_read_eq hm hn h

/-! Reset and restart (R38, R190). -/

theorem fontset_length : fontset.length = 80 := rfl

theorem resetByte_above_font {a : Nat} (h : 80 ≤ a) : resetByte a = 0 :=
  List.getD_eq_default _ _ (fontset_length ▸ h)

theorem State.restart_hasResetValues (s : State) : s.restart.HasResetValues where
  v r := Vector.getElem_replicate r.isLt
  index := rfl
  pc := rfl
  sp := rfl
  stack k := Vector.getElem_replicate k.isLt
  delayTimer := rfl
  soundTimer := rfl
  font _ _ := rfl
  rest _ h _ := resetByte_above_font h
  framebuffer _ _ := Frame.pixel_blank _ _
  drawFlag := rfl
  fault := rfl

/-- Settles O26, element by element. -/
theorem restartSetsEveryElement : Obligations.RestartSetsEveryElement :=
  fun s => ⟨s.restart_hasResetValues, rfl, rfl⟩

/-- Settles O25: the reset state is its own restart. -/
theorem resetStateHoldsResetValues : Obligations.ResetStateHoldsResetValues :=
  ⟨State.reset.restart_hasResetValues, rfl, rfl⟩

/-! Frames: each operation keeps all but the part it writes. -/

section
variable {w : Part → Prop} {s t : State}

theorem KeepsAllBut.refl (w : Part → Prop) (s : State) : KeepsAllBut w s s := by
  constructor <;> intros <;> rfl

theorem KeepsAllBut.advance (h : KeepsAllBut w s t) : KeepsAllBut w s t.advance := { h with }

theorem KeepsAllBut.countDraw (h : KeepsAllBut w s t) (hw : w .draws) : KeepsAllBut w s t.countDraw :=
  { h with draws := absurd hw }

theorem KeepsAllBut.setV (h : KeepsAllBut w s t) {x : RegId} (hw : w (.reg x)) (b : Byte) :
    KeepsAllBut w s (t.setV x b) :=
  { h with
    regs := fun r hr => by
      rw [State.getV_setV, if_neg fun hrx : r = x => hr (hrx ▸ hw)]
      exact h.regs r hr }

end

/-- Settles O44: the masked draw clears every bit outside NN. -/
theorem rndMasksTheDraw : Obligations.RndMasksTheDraw := by
  intro x nn s
  have hx : (s.countDraw.setV x (s.nextDraw &&& nn)).getV x = Config.draw8 s.drawIndex &&& nn := by
    rw [State.getV_setV, if_pos rfl, State.nextDraw]
  refine ⟨_, rfl, hx, ?_, rfl, rfl,
    (((KeepsAllBut.refl _ s).countDraw (.inr rfl)).setV (.inl rfl) _).advance⟩
  rw [State.advance_getV, hx, BitVec.and_assoc, BitVec.and_not_self]
  exact BitVec.and_zero

end Sys2Proof.Machine
end

section
/-! SUPPORT. The statements of the family of spec/20_memory.md: an instruction's two bytes, the fetch and the step that
runs the fetched instruction, and the accesses of FX33, FX55 and FX65 at and outside the end of memory. -/

namespace Sys2Proof

/-! An instruction as two bytes (R56, R71). -/

/-- The round trip of every instruction, from the one law of each (R74, R75). -/
theorem decode_encode (i : Instr) : decode (encode i) = .ok i := by
  cases i with
  | cls => exact Laws.RoundTrip.cls
  | ret => exact Laws.RoundTrip.ret
  | jp nnn => exact Laws.RoundTrip.jp nnn
  | call nnn => exact Laws.RoundTrip.call nnn
  | seImm x nn => exact Laws.RoundTrip.seImm x nn
  | sneImm x nn => exact Laws.RoundTrip.sneImm x nn
  | seReg x y => exact Laws.RoundTrip.seReg x y
  | ldImm x nn => exact Laws.RoundTrip.ldImm x nn
  | addImm x nn => exact Laws.RoundTrip.addImm x nn
  | ldReg x y => exact Laws.RoundTrip.ldReg x y
  | orReg x y => exact Laws.RoundTrip.orReg x y
  | andReg x y => exact Laws.RoundTrip.andReg x y
  | xorReg x y => exact Laws.RoundTrip.xorReg x y
  | addReg x y => exact Laws.RoundTrip.addReg x y
  | subReg x y => exact Laws.RoundTrip.subReg x y
  | shr x y => exact Laws.RoundTrip.shr x y
  | subnReg x y => exact Laws.RoundTrip.subnReg x y
  | shl x y => exact Laws.RoundTrip.shl x y
  | sneReg x y => exact Laws.RoundTrip.sneReg x y
  | ldI nnn => exact Laws.RoundTrip.ldI nnn
  | jpV0 nnn => exact Laws.RoundTrip.jpV0 nnn
  | rnd x nn => exact Laws.RoundTrip.rnd x nn
  | drw x y n => exact Laws.RoundTrip.drw x y n
  | skp x => exact Laws.RoundTrip.skp x
  | sknp x => exact Laws.RoundTrip.sknp x
  | ldVxDT x => exact Laws.RoundTrip.ldVxDT x
  | ldVxK x => exact Laws.RoundTrip.ldVxK x
  | ldDTVx x => exact Laws.RoundTrip.ldDTVx x
  | ldSTVx x => exact Laws.RoundTrip.ldSTVx x
  | addI x => exact Laws.RoundTrip.addI x
  | ldF x => exact Laws.RoundTrip.ldF x
  | ldB x => exact Laws.RoundTrip.ldB x
  | stRegs x => exact Laws.RoundTrip.stRegs x
  | ldRegs x => exact Laws.RoundTrip.ldRegs x

/-- Two bytes or more decode as their first two do, and leave the others over. -/
theorem decodeBytes_eq_ok {hi lo : Byte} {rest left : List Byte} {i : Instr} :
    decodeBytes (hi :: lo :: rest) = .ok (i, left) ↔ decode (wordOfBytes hi lo) = .ok i ∧ rest = left := by
  cases hd : decode (wordOfBytes hi lo) with
  | ok j => simp [decodeBytes, hd]
  | error e => simp [decodeBytes, hd]

/-- Settles O6: the two bytes of an instruction make up its word again, which decodes to it. -/
theorem instructionIsTwoBytesHighFirst : Obligations.InstructionIsTwoBytesHighFirst := by
  intro i rest
  have hword : decode (wordOfBytes (highByte (encode i)) (lowByte (encode i))) = .ok i := by
    rw [wordOfBytes_split, decode_encode]
  exact decodeBytes_eq_ok.mpr ⟨hword, rfl⟩

end Sys2Proof

namespace Sys2Proof.Machine

/-! The fetch and the step that runs what it fetched (R55, R70). -/

theorem State.fetchWord_toNat (s : State) :
    s.fetchWord.toNat = (s.readByte s.pc.toNat).toNat * 256 + (s.readByte (s.pc.toNat + 1)).toNat :=
  wordOfBytes_toNat _ _

/-- Settles O11, by the value of the word of two bytes. -/
theorem fetchedWordIsBigEndian : Obligations.FetchedWordIsBigEndian := State.fetchWord_toNat

theorem State.raise_raised (s : State) (c : MachineFault) : Raised c s (s.raise c) := by
  refine ⟨rfl, rfl, ?_⟩
  constructor
  case fault => exact absurd rfl
  all_goals intros; rfl

theorem step_of_not_fetchable {s : State} (hf : s.fault = none) (hpc : s.fetchable = false) :
    step s = .next (s.raise .fetchOutOfRange) := by
  simp [step, hf, hpc]

/-- Settles O9: the fetch raises the fault before anything else of the step. -/
theorem fetchOutsideMemoryFaults : Obligations.FetchOutsideMemoryFaults := by
  intro s hf hpc
  have hfetch : s.fetchable = false := decide_eq_false (by omega)
  exact ⟨_, step_of_not_fetchable hf hfetch, s.raise_raised _⟩

section
variable {s t : State} {i : Instr} (hf : s.fault = none) (hpc : s.fetchable = true)
  (hi : decode s.fetchWord = .ok i)
include hf hpc hi

theorem step_of_exec_next (h : exec i s = .next t) : step s = .next (afterExec i s t) := by
  simp [step, hf, hpc, hi, h]

theorem step_of_exec_fault {r : Fault} (h : exec i s = .fault r) : step s = .fault r := by
  simp [step, hf, hpc, hi, h]

end

section
variable {s t : State} {i : Instr}

theorem awaitsKey_iff : awaitsKey i s = true ↔ (∃ x, i = .ldVxK x) ∧ s.keypad = 0 := by
  cases i
  case ldVxK x => simp [awaitsKey]
  all_goals exact iff_of_false Bool.false_ne_true fun ⟨⟨_, h⟩, _⟩ => nomatch h

theorem afterExec_of_fault (h : t.fault ≠ none) : afterExec i s t = t :=
  if_pos (by simp [Option.isSome_iff_ne_none.mpr h])

theorem afterExec_of_awaitsKey (h : awaitsKey i s = true) : afterExec i s t = t :=
  if_pos (by simp [h])

theorem afterExec_of_completed (hf : t.fault = none) (h : ¬ awaitsKey i s = true) :
    afterExec i s t = t.timerPhase :=
  if_neg (by simp [hf, h])

end

/-- Settles O7: the bytes at PC are the fetched word, and the first three clauses are the cases of the step's end. -/
theorem stepRunsTheDecodedInstruction : Obligations.StepRunsTheDecodedInstruction := by
  intro s i hf hpc hbytes
  have hfetch : s.fetchable = true := State.fetchable_iff.mpr hpc
  have hi : decode s.fetchWord = .ok i := (decodeBytes_eq_ok.mp hbytes).1
  refine ⟨fun t h hfault => ?_, fun t h hkey hnone => ?_, fun t h hok hwait => ?_, fun r h => ?_⟩
  · rw [step_of_exec_next hf hfetch hi h, afterExec_of_fault hfault]
  · rw [step_of_exec_next hf hfetch hi h, afterExec_of_awaitsKey (awaitsKey_iff.mpr ⟨hkey, hnone⟩)]
  · rw [step_of_exec_next hf hfetch hi h, afterExec_of_completed hok (awaitsKey_iff.not.mpr hwait)]
  · exact step_of_exec_fault hf hfetch hi h

/-! The range check of FX33, FX55 and FX65 (R54, R130). -/

theorem State.rangeInMemory_succ {s : State} {n : Nat} :
    s.rangeInMemory (n + 1) = true ↔ s.index.toNat + n ≤ 0xFFF := by
  simp only [State.rangeInMemory, Config.memSize, decide_eq_true_eq]
  omega

section
variable {s : State} {x : RegId}

theorem execLdB_of_inside (h : s.index.toNat + 2 ≤ 0xFFF) :
    exec (.ldB x) s = .next (s.writeBytes s.base (bcdDigits (s.getV x))).advance :=
  if_pos (State.rangeInMemory_succ.mpr h)

theorem execStRegs_of_inside (h : s.index.toNat + x.val ≤ 0xFFF) :
    exec (.stRegs x) s = .next ((s.writeBytes s.base (s.regsUpTo x)).setIndex (s.indexPast x)).advance :=
  if_pos (State.rangeInMemory_succ.mpr h)

theorem execLdB_of_outside (h : 0xFFF < s.index.toNat + 2) :
    exec (.ldB x) s = .next (s.raise .memoryOutOfRange) :=
  if_neg (State.rangeInMemory_succ.not.mpr (by omega))

theorem execStRegs_of_outside (h : 0xFFF < s.index.toNat + x.val) :
    exec (.stRegs x) s = .next (s.raise .memoryOutOfRange) :=
  if_neg (State.rangeInMemory_succ.not.mpr (by omega))

theorem execLdRegs_of_outside (h : 0xFFF < s.index.toNat + x.val) :
    exec (.ldRegs x) s = .next (s.raise .memoryOutOfRange) :=
  if_neg (State.rangeInMemory_succ.not.mpr (by omega))

end

/-- Settles O50: each of the three fails its range check, and so only raises the fault. -/
theorem accessOutsideMemoryFaults : Obligations.AccessOutsideMemoryFaults := fun _ s =>
  ⟨fun h => ⟨_, execLdB_of_outside h, s.raise_raised _⟩,
    fun h => ⟨_, execStRegs_of_outside h, s.raise_raised _⟩,
    fun h => ⟨_, execLdRegs_of_outside h, s.raise_raised _⟩⟩

/-! A store and the fetch after it (R62). -/

/-- A store leaves at every address the byte that R60 gives for it, whatever function lists the stored bytes. -/
theorem State.readByte_writeBytes_eq_byteAfterStore {bs : List Byte} {b : Nat → Byte} (s : State) (a : Nat)
    (hb : ∀ k < bs.length, bs.getD k 0 = b k) (p : Nat) :
    (s.writeBytes a bs).readByte p = s.byteAfterStore a bs.length b p := by
  rw [State.readByte_writeBytes, State.byteAfterStore]
  split
  next hin => exact hb _ (by omega)
  next => rfl

/-- An instruction that stores bytes and goes on to PC + 2 is followed by the fetch of what the store left there. -/
theorem State.fetchWord_after_store {s t : State} {a : Nat} {bs : List Byte} {b : Nat → Byte}
    (hmem : t.mem = (s.writeBytes a bs).mem) (hpc : t.pc = s.pc + 2) (hb : ∀ k < bs.length, bs.getD k 0 = b k) :
    t.fetchWord.toNat = (s.byteAfterStore a bs.length b (s.pc + 2).toNat).toNat * 256 +
      (s.byteAfterStore a bs.length b ((s.pc + 2).toNat + 1)).toNat := by
  have hread (p : Nat) : t.readByte p = s.byteAfterStore a bs.length b p := by
    rw [← s.readByte_writeBytes_eq_byteAfterStore a hb, State.readByte, hmem, State.readByte]
  rw [State.fetchWord_toNat, hread, hread, hpc]

theorem bcdDigits_eq {v : Byte} {b : Nat → Byte} (h0 : (b 0).toNat = v.toNat / 100)
    (h1 : (b 1).toNat = v.toNat / 10 % 10) (h2 : (b 2).toNat = v.toNat % 10) :
    bcdDigits v = [b 0, b 1, b 2] := by
  simp [bcdDigits, ← h0, ← h1, ← h2]

/-- Settles O51: both instructions store a list of bytes, which the fetch reads where the store reached. -/
theorem storeIsSeenByTheNextFetch : Obligations.StoreIsSeenByTheNextFetch := by
  intro x s
  refine ⟨fun h => ⟨_, execStRegs_of_inside h, fun b hb => ?_⟩,
    fun h => ⟨_, execLdB_of_inside h, fun b h0 h1 h2 => ?_⟩⟩
  · have hlen : (s.regsUpTo x).length = x.val + 1 := s.regsUpTo_length x
    rw [← hlen]
    refine State.fetchWord_after_store rfl (by simp) fun k hk => ?_
    obtain ⟨r, rfl⟩ : ∃ r : RegId, r.val = k := ⟨⟨k, by omega⟩, rfl⟩
    have hr : r ≤ x := Fin.le_def.mpr (by omega)
    exact (s.regsUpTo_getD x r hr).trans (hb r hr).symm
  · refine State.fetchWord_after_store (bs := bcdDigits (s.getV x)) rfl (by simp) fun k hk => ?_
    rw [bcdDigits_eq h0 h1 h2] at hk ⊢
    match k, hk with
    | 0, _ | 1, _ | 2, _ => rfl

end Sys2Proof.Machine
end

section
/-! SUPPORT. The statements of the family of spec/30_encoding.md. The decoder is read once: in each group it answers an
instruction whose word is the one decoded exactly when the group's literal digits match, and otherwise rejects the word.
The digits that the rows of the opcode map ask for are the same. -/

namespace Sys2Proof

/-- Settles O1, by the round trip of each instruction. -/
theorem decodeOfEncodeIsTheInstruction : Obligations.DecodeOfEncodeIsTheInstruction := decode_encode

/-! A word is put together again from its fields (R72). -/

section
variable {op : Word} {g : Nibble} (hg : fieldG op = g)
include hg

theorem wordNNN_fields : wordNNN g (fieldNNN op) = op := by
  subst hg
  exact (BitVec.extractLsb'_append_extractLsb'_eq_extractLsb' rfl).trans BitVec.extractLsb'_eq_self

theorem wordXNN_fields {nn : Byte} (hnn : fieldNN op = nn) : wordXNN g (fieldX op) nn = op := by
  subst hg hnn
  show op.extractLsb' 12 4 ++ op.extractLsb' 8 4 ++ op.extractLsb' 0 8 = op
  rw [BitVec.extractLsb'_append_extractLsb'_eq_extractLsb' (start₁ := 8) (len₁ := 4) rfl]
  exact (BitVec.extractLsb'_append_extractLsb'_eq_extractLsb' rfl).trans BitVec.extractLsb'_eq_self

theorem wordXYN_fields {n : Nibble} (hn : fieldN op = n) : wordXYN g (fieldX op) (fieldY op) n = op := by
  subst hg hn
  show op.extractLsb' 12 4 ++ op.extractLsb' 8 4 ++ op.extractLsb' 4 4 ++ op.extractLsb' 0 4 = op
  rw [BitVec.extractLsb'_append_extractLsb'_eq_extractLsb' (start₁ := 8) (len₁ := 4) rfl,
    BitVec.extractLsb'_append_extractLsb'_eq_extractLsb' (start₁ := 4) (len₁ := 4) rfl]
  exact (BitVec.extractLsb'_append_extractLsb'_eq_extractLsb' rfl).trans BitVec.extractLsb'_eq_self

end

/-! What a row asks of the fields of a word: its mask keeps the literal digits and clears the others (R75). -/

theorem ofFin_and_zero (x : RegId) : (BitVec.ofFin x : Nibble) &&& BitVec.ofFin 0 = BitVec.ofFin 0 := BitVec.and_zero

section
variable (op : Word) (g : Nibble)

theorem and_groupMask : op &&& 0xF000 = wordNNN (fieldG op) 0#12 :=
  calc op &&& 0xF000
    _ = wordNNN (fieldG op) (fieldNNN op) &&& wordNNN (BitVec.allOnes 4) 0#12 := by rw [wordNNN_fields rfl]; rfl
    _ = wordNNN (fieldG op) 0#12 := by
      rw [wordNNN, wordNNN, BitVec.and_append, BitVec.and_allOnes, BitVec.and_zero, wordNNN]

theorem and_lowByteMask : op &&& 0xF0FF = wordXNN (fieldG op) 0 (fieldNN op) :=
  calc op &&& 0xF0FF
    _ = wordXNN (fieldG op) (fieldX op) (fieldNN op) &&& wordXNN (BitVec.allOnes 4) 0 (BitVec.allOnes 8) := by
      rw [wordXNN_fields rfl rfl]; rfl
    _ = wordXNN (fieldG op) 0 (fieldNN op) := by
      rw [wordXNN, wordXNN, BitVec.and_append, BitVec.and_append, BitVec.and_allOnes, BitVec.and_allOnes,
        ofFin_and_zero, wordXNN]

theorem and_lastDigitMask : op &&& 0xF00F = wordXYN (fieldG op) 0 0 (fieldN op) :=
  calc op &&& 0xF00F
    _ = wordXYN (fieldG op) (fieldX op) (fieldY op) (fieldN op) &&&
        wordXYN (BitVec.allOnes 4) 0 0 (BitVec.allOnes 4) := by rw [wordXYN_fields rfl rfl]; rfl
    _ = wordXYN (fieldG op) 0 0 (fieldN op) := by
      rw [wordXYN, wordXYN, BitVec.and_append, BitVec.and_append, BitVec.and_append, BitVec.and_allOnes,
        BitVec.and_allOnes, ofFin_and_zero, ofFin_and_zero, wordXYN]

/-- A row with only the group's digit. -/
theorem and_groupMask_eq_iff : op &&& 0xF000 = wordNNN g 0#12 ↔ fieldG op = g := by
  rw [and_groupMask]
  exact ⟨fun h => by simpa only [fieldG_wordNNN] using congrArg fieldG h, fun h => h ▸ rfl⟩

/-- A row with the group's digit and the low byte. -/
theorem and_lowByteMask_eq_iff (nn : Byte) :
    op &&& 0xF0FF = wordXNN g 0 nn ↔ fieldG op = g ∧ fieldNN op = nn := by
  rw [and_lowByteMask]
  refine ⟨fun h => ⟨?_, ?_⟩, fun ⟨h, h'⟩ => h ▸ h' ▸ rfl⟩
  · simpa only [fieldG_wordXNN] using congrArg fieldG h
  · simpa only [fieldNN_wordXNN] using congrArg fieldNN h

/-- A row with the group's digit and the last digit. -/
theorem and_lastDigitMask_eq_iff (n : Nibble) :
    op &&& 0xF00F = wordXYN g 0 0 n ↔ fieldG op = g ∧ fieldN op = n := by
  rw [and_lastDigitMask]
  refine ⟨fun h => ⟨?_, ?_⟩, fun ⟨h, h'⟩ => h ▸ h' ▸ rfl⟩
  · simpa only [fieldG_wordXYN] using congrArg fieldG h
  · simpa only [fieldN_wordXYN] using congrArg fieldN h

end

/-- A row of the map by the digits of the word that are literal in it. -/
inductive RowDigits where
  /-- All four (00E0, 00EE). -/
  | all (g : Nibble) (nnn : Imm12)
  /-- The first alone (1NNN, 3XNN, DXYN). -/
  | group (g : Nibble)
  /-- The first and the last two (EX9E, FX07). -/
  | lowByte (g : Nibble) (nn : Byte)
  /-- The first and the last (5XY0, 8XY4). -/
  | lastDigit (g n : Nibble)

/-- The row's mask and value. -/
def RowDigits.row : RowDigits → OpcodeRow
  | .all g nnn => ⟨0xFFFF, wordNNN g nnn⟩
  | .group g => ⟨0xF000, wordNNN g 0#12⟩
  | .lowByte g nn => ⟨0xF0FF, wordXNN g 0 nn⟩
  | .lastDigit g n => ⟨0xF00F, wordXYN g 0 0 n⟩

/-- The word has the digits. -/
@[simp] def RowDigits.Fits (op : Word) : RowDigits → Prop
  | .all g nnn => fieldG op = g ∧ fieldNNN op = nnn
  | .group g => fieldG op = g
  | .lowByte g nn => fieldG op = g ∧ fieldNN op = nn
  | .lastDigit g n => fieldG op = g ∧ fieldN op = n

theorem eq_wordNNN_iff {op : Word} {g : Nibble} {nnn : Imm12} :
    op = wordNNN g nnn ↔ fieldG op = g ∧ fieldNNN op = nnn := by
  refine ⟨?_, fun ⟨hg, hnnn⟩ => hnnn ▸ (wordNNN_fields hg).symm⟩
  rintro rfl
  exact ⟨fieldG_wordNNN g nnn, fieldNNN_wordNNN g nnn⟩

theorem RowDigits.row_fits_iff (op : Word) (d : RowDigits) : op &&& d.row.mask = d.row.value ↔ d.Fits op := by
  cases d with
  | all g nnn => exact (BitVec.and_allOnes (x := op)).congr_left.trans eq_wordNNN_iff
  | group g => exact and_groupMask_eq_iff op g
  | lowByte g nn => exact and_lowByteMask_eq_iff op g nn
  | lastDigit g n => exact and_lastDigitMask_eq_iff op g n

/-- The digits of the map's 34 rows, in its order. -/
@[simp] def rowDigits : List RowDigits :=
  [.all 0x0 0x0E0, .all 0x0 0x0EE, .group 0x1, .group 0x2, .group 0x3, .group 0x4, .lastDigit 0x5 0x0, .group 0x6,
   .group 0x7, .lastDigit 0x8 0x0, .lastDigit 0x8 0x1, .lastDigit 0x8 0x2, .lastDigit 0x8 0x3, .lastDigit 0x8 0x4,
   .lastDigit 0x8 0x5, .lastDigit 0x8 0x6, .lastDigit 0x8 0x7, .lastDigit 0x8 0xE, .lastDigit 0x9 0x0, .group 0xA,
   .group 0xB, .group 0xC, .group 0xD, .lowByte 0xE 0x9E, .lowByte 0xE 0xA1, .lowByte 0xF 0x07, .lowByte 0xF 0x0A,
   .lowByte 0xF 0x15, .lowByte 0xF 0x18, .lowByte 0xF 0x1E, .lowByte 0xF 0x29, .lowByte 0xF 0x33, .lowByte 0xF 0x55,
   .lowByte 0xF 0x65]

theorem opcodeMap_eq_map_row : opcodeMap = rowDigits.map RowDigits.row := rfl

/-- The word has the literal digits of a row of the map. -/
@[simp] def HasRowDigits (op : Word) : Prop := ∃ d ∈ rowDigits, d.Fits op

theorem exists_row_iff (op : Word) : (∃ r ∈ opcodeMap, op &&& r.mask = r.value) ↔ HasRowDigits op := by
  simp only [opcodeMap_eq_map_row, List.mem_map, exists_exists_and_eq_and, RowDigits.row_fits_iff, HasRowDigits]

/-! What the decoder answers (R74). -/

/-- The answer is right for the word: an instruction with this word if the digits match (`p`), a rejection if not. -/
def Answers (op : Word) (p : Prop) : Except DecodeError Instr → Prop
  | .ok i => p ∧ encode i = op
  | .error e => ¬ p ∧ e = .unrecognized op

section
variable {op : Word} {p q c : Prop} {i : Instr} {r : Except DecodeError Instr}

theorem Answers.congr (h : Answers op p r) (hpq : p ↔ q) : Answers op q r := propext hpq ▸ h

/-- No comparison is left. -/
theorem Answers.reject (op : Word) : Answers op False (.error (.unrecognized op)) := ⟨id, rfl⟩

/-- A comparison with the digits of one row, then with those of the rows after it. -/
theorem Answers.ite [Decidable c] (henc : c → encode i = op) (h : Answers op p r) :
    Answers op (c ∨ p) (if c then .ok i else r) := by
  by_cases hc : c
  · rw [if_pos hc]
    exact ⟨.inl hc, henc hc⟩
  · rw [if_neg hc]
    exact h.congr (or_iff_right hc).symm

theorem decodeLastDigitZero_answers (henc : fieldN op = 0x0 → encode i = op) :
    Answers op (fieldN op = 0x0 ∨ False) (decodeLastDigitZero op i) :=
  .ite henc (.reject op)

theorem decodeGroup0_answers (hg : fieldG op = 0x0) :
    Answers op (fieldNNN op = 0x0E0 ∨ fieldNNN op = 0x0EE ∨ False) (decodeGroup0 op) :=
  have h (nnn : Imm12) : op = wordNNN 0x0 nnn ↔ fieldNNN op = nnn := eq_wordNNN_iff.trans (and_iff_right hg)
  have hif : Answers op (op = 0x00E0 ∨ op = 0x00EE ∨ False) (decodeGroup0 op) :=
    .ite Eq.symm <| .ite Eq.symm <| .reject op
  hif.congr (or_congr (h 0x0E0) <| or_congr (h 0x0EE) .rfl)

theorem decodeGroup8_eq_ite (op : Word) :
    decodeGroup8 op =
      if fieldN op = 0x0 then .ok (.ldReg (fieldX op) (fieldY op))
      else if fieldN op = 0x1 then .ok (.orReg (fieldX op) (fieldY op))
      else if fieldN op = 0x2 then .ok (.andReg (fieldX op) (fieldY op))
      else if fieldN op = 0x3 then .ok (.xorReg (fieldX op) (fieldY op))
      else if fieldN op = 0x4 then .ok (.addReg (fieldX op) (fieldY op))
      else if fieldN op = 0x5 then .ok (.subReg (fieldX op) (fieldY op))
      else if fieldN op = 0x6 then .ok (.shr (fieldX op) (fieldY op))
      else if fieldN op = 0x7 then .ok (.subnReg (fieldX op) (fieldY op))
      else if fieldN op = 0xE then .ok (.shl (fieldX op) (fieldY op))
      else .error (.unrecognized op) := by
  unfold decodeGroup8
  split <;> simp_all [← BitVec.toNat_inj]

theorem decodeGroup8_answers (hg : fieldG op = 0x8) :
    Answers op (fieldN op = 0x0 ∨ fieldN op = 0x1 ∨ fieldN op = 0x2 ∨ fieldN op = 0x3 ∨ fieldN op = 0x4 ∨
      fieldN op = 0x5 ∨ fieldN op = 0x6 ∨ fieldN op = 0x7 ∨ fieldN op = 0xE ∨ False) (decodeGroup8 op) := by
  have h {n : Nibble} : fieldN op = n → wordXYN 0x8 (fieldX op) (fieldY op) n = op := wordXYN_fields hg
  rw [decodeGroup8_eq_ite]
  exact .ite h <| .ite h <| .ite h <| .ite h <| .ite h <| .ite h <| .ite h <| .ite h <| .ite h <| .reject op

theorem decodeGroupE_answers (hg : fieldG op = 0xE) :
    Answers op (fieldNN op = 0x9E ∨ fieldNN op = 0xA1 ∨ False) (decodeGroupE op) :=
  .ite (wordXNN_fields hg) <| .ite (wordXNN_fields hg) <| .reject op

theorem decodeGroupF_answers (hg : fieldG op = 0xF) :
    Answers op (fieldNN op = 0x07 ∨ fieldNN op = 0x0A ∨ fieldNN op = 0x15 ∨ fieldNN op = 0x18 ∨ fieldNN op = 0x1E ∨
      fieldNN op = 0x29 ∨ fieldNN op = 0x33 ∨ fieldNN op = 0x55 ∨ fieldNN op = 0x65 ∨ False) (decodeGroupF op) :=
  have h {nn : Byte} : fieldNN op = nn → wordXNN 0xF (fieldX op) nn = op := wordXNN_fields hg
  .ite h <| .ite h <| .ite h <| .ite h <| .ite h <| .ite h <| .ite h <| .ite h <| .ite h <| .reject op

/-- A group whose rows hold no other literal digit accepts the word. -/
theorem Answers.of_group (g : Nibble) (h : (fieldG op).toNat = g.toNat) (hrow : .group g ∈ rowDigits)
    (henc : fieldG op = g → encode i = op) : Answers op (HasRowDigits op) (.ok i) :=
  have hg := BitVec.eq_of_toNat_eq h
  ⟨⟨.group g, hrow, hg⟩, henc hg⟩

/-- A group in which the map asks for `p` compares the other digits. -/
theorem Answers.of_compared (g : Nibble) (h : (fieldG op).toNat = g.toNat)
    (hp : fieldG op = g → (p ↔ HasRowDigits op)) (hr : fieldG op = g → Answers op p r) : Answers op (HasRowDigits op) r :=
  have hg := BitVec.eq_of_toNat_eq h
  (hr hg).congr (hp hg)

end

theorem decode_answers (op : Word) : Answers op (HasRowDigits op) (decode op) := by
  unfold decode
  split
  next h => exact .of_compared 0x0 h (fun hg => by simp [hg]) fun hg => decodeGroup0_answers hg
  next h => exact .of_group 0x1 h (by simp) fun hg => wordNNN_fields hg
  next h => exact .of_group 0x2 h (by simp) fun hg => wordNNN_fields hg
  next h => exact .of_group 0x3 h (by simp) fun hg => wordXNN_fields hg rfl
  next h => exact .of_group 0x4 h (by simp) fun hg => wordXNN_fields hg rfl
  next h => exact .of_compared 0x5 h (fun hg => by simp [hg]) fun hg =>
    decodeLastDigitZero_answers (wordXYN_fields hg)
  next h => exact .of_group 0x6 h (by simp) fun hg => wordXNN_fields hg rfl
  next h => exact .of_group 0x7 h (by simp) fun hg => wordXNN_fields hg rfl
  next h => exact .of_compared 0x8 h (fun hg => by simp [hg]) fun hg => decodeGroup8_answers hg
  next h => exact .of_compared 0x9 h (fun hg => by simp [hg]) fun hg =>
    decodeLastDigitZero_answers (wordXYN_fields hg)
  next h => exact .of_group 0xA h (by simp) fun hg => wordNNN_fields hg
  next h => exact .of_group 0xB h (by simp) fun hg => wordNNN_fields hg
  next h => exact .of_group 0xC h (by simp) fun hg => wordXNN_fields hg rfl
  next h => exact .of_group 0xD h (by simp) fun hg => wordXYN_fields hg rfl
  next h => exact .of_compared 0xE h (fun hg => by simp [hg]) fun hg => decodeGroupE_answers hg
  next =>
    have hF : (fieldG op).toNat = 0xF := by
      have hlt : (fieldG op).toNat < 16 := (fieldG op).isLt
      grind
    exact .of_compared 0xF hF (fun hg => by simp [hg]) fun hg => decodeGroupF_answers hg

/-- Two rows that one word matches agree on the digits that both hold, and the map has no such pair. -/
theorem opcodeRow_eq_of_agree :
    ∀ r ∈ opcodeMap, ∀ q ∈ opcodeMap, r.value &&& q.mask = q.value &&& r.mask → r = q := by
  decide

/-- Settles O4: a word that matches both rows makes them agree on the digits that both hold. -/
theorem opcodeRowsAreDisjoint : Obligations.OpcodeRowsAreDisjoint := by
  intro op r q hr hq hopr hopq
  refine opcodeRow_eq_of_agree r hr q hq ?_
  rw [← hopr, ← hopq, BitVec.and_assoc, BitVec.and_assoc, BitVec.and_comm r.mask]

/-- Settles O2, by what the decoder answers. -/
theorem encodeOfDecodeIsTheWord : Obligations.EncodeOfDecodeIsTheWord := by
  intro op i hi
  have h : Answers op (HasRowDigits op) (.ok i) := hi ▸ decode_answers op
  exact h.2

/-- Settles O3, by what the decoder answers. -/
theorem decodeAcceptsExactlyTheOpcodeMap : Obligations.DecodeAcceptsExactlyTheOpcodeMap := by
  intro op
  rw [exists_row_iff]
  have h := decode_answers op
  cases hd : decode op with rw [hd] at h
  | ok i =>
    obtain ⟨hrow, -⟩ := h
    exact ⟨iff_of_true ⟨i, rfl⟩ hrow, absurd hrow⟩
  | error e =>
    obtain ⟨hno, rfl⟩ := h
    exact ⟨iff_of_false (fun ⟨_, hi⟩ => nomatch hi) hno, fun _ => rfl⟩

/-- Settles O5: each word is evaluated. -/
theorem writtenWordsDecode : Obligations.WrittenWordsDecode := by
  unfold Obligations.WrittenWordsDecode
  decide

end Sys2Proof
end

section
/-! SUPPORT. The statements of the family of spec/40_control_flow.md: where a jump, a skip, a call and a return take PC,
and what they leave unchanged. -/

namespace Sys2Proof.Machine

/-! Frames of the control transfers: PC is no part of a frame, a push writes SP and its slot, a pop writes SP. -/

section
variable {w : Part → Prop} {s t : State}

theorem KeepsAllBut.jumpTo (h : KeepsAllBut w s t) (pc : Word) : KeepsAllBut w s (t.jumpTo pc) := { h with }

theorem KeepsAllBut.skipIf (h : KeepsAllBut w s t) (c : Bool) : KeepsAllBut w s (t.skipIf c) := { h with }

theorem KeepsAllBut.setSp (h : KeepsAllBut w s t) (hw : w .sp) (sp : BitVec 5) :
    KeepsAllBut w s { t with sp := sp } :=
  { h with sp := absurd hw }

theorem KeepsAllBut.setSlot (h : KeepsAllBut w s t) {k : Fin 16} (hw : w (.slot k)) (a : Word) :
    KeepsAllBut w s { t with stack := t.stack.set k a } :=
  { h with
    slots := fun j hj => by
      have hkj : k.val ≠ j.val := fun heq => hj (Fin.ext heq ▸ hw)
      exact (Vector.getElem_set_ne k.isLt j.isLt hkj).trans (h.slots j hj) }

end

/-! Jumps (R102, R108). -/

theorem zextNNN_toNat (nnn : Imm12) : (zextNNN nnn).toNat = nnn.toNat :=
  BitVec.toNat_setWidth_of_le (by decide)

theorem zextByte_toNat (b : Byte) : (zextByte b).toNat = b.toNat := BitVec.toNat_setWidth_of_le (by decide)

/-- The largest 12-bit address plus the largest byte fits in PC, so the sum of BNNN is never reduced. -/
theorem State.indexedTarget_toNat (s : State) (nnn : Imm12) :
    (s.indexedTarget nnn).toNat = nnn.toNat + (s.getV 0).toNat := by
  have hnnn := nnn.isLt
  have hv := (s.getV 0).isLt
  rw [State.indexedTarget, BitVec.toNat_add, zextNNN_toNat, zextByte_toNat]
  omega

/-- Settles O29: NNN keeps its value in the 16 bits of PC. -/
theorem jpSetsPc : Obligations.JpSetsPc :=
  fun nnn s => ⟨_, rfl, zextNNN_toNat nnn, (KeepsAllBut.refl _ s).jumpTo _⟩

/-- Settles O30, by the value of the target. -/
theorem jpV0AddsV0 : Obligations.JpV0AddsV0 :=
  fun nnn s => ⟨_, rfl, s.indexedTarget_toNat nnn, (KeepsAllBut.refl _ s).jumpTo _⟩

/-! Calls and returns, an equation for each range of SP (R101, R103). -/

section
variable {s : State}

theorem exec_call_of_free {nnn : Imm12} (h : s.sp.toNat < 16) :
    exec (.call nnn) s =
      .next ({ s with stack := s.stack.set s.sp.toNat s.pc, sp := s.sp + 1 }.jumpTo (zextNNN nnn)) := by
  obtain ⟨t, ht⟩ := exec_answers (.call nnn) s h.le
  obtain ⟨hfull, -⟩ | ⟨-, _, rfl⟩ := execCall_cases ht
  · simp [hfull] at h
  · exact ht

theorem exec_call_of_full {nnn : Imm12} (h : s.sp = 16) : exec (.call nnn) s = .next (s.raise .stackOverflow) :=
  if_pos h

theorem exec_ret_of_pushed (h : 1 ≤ s.sp.toNat ∧ s.sp.toNat ≤ 16) :
    exec .ret s = .next ({ s with sp := s.sp - 1 }.jumpTo (s.stack[s.sp.toNat - 1] + 2)) := by
  obtain ⟨t, ht⟩ := exec_answers .ret s h.2
  obtain ⟨hempty, -⟩ | ⟨-, _, rfl⟩ := execRet_cases ht
  · simp [hempty] at h
  · have htop : (s.sp - 1).toNat = s.sp.toNat - 1 := by bv_omega
    simpa only [htop] using ht

theorem exec_ret_of_empty (h : s.sp = 0) : exec .ret s = .next (s.raise .stackUnderflow) := if_pos h

end

/-- Settles O31: a CALL writes the free slot and SP, or raises the fault where no slot is free. -/
theorem callPushesItsOwnAddress : Obligations.CallPushesItsOwnAddress := by
  refine fun nnn s => ⟨fun h => ⟨_, exec_call_of_free h, Vector.getElem_set_self h, ?_, zextNNN_toNat nnn, ?_⟩,
    fun h => ⟨_, exec_call_of_full (BitVec.eq_of_toNat_eq h), s.raise_raised _⟩⟩
  · show (s.sp + 1).toNat = s.sp.toNat + 1
    bv_omega
  · exact (((KeepsAllBut.refl _ s).setSlot (k := ⟨s.sp.toNat, h⟩) (.inr rfl) s.pc).setSp (.inl rfl) _).jumpTo _

/-- Settles O32: a RET reads the slot below SP and writes SP, or raises the fault where no slot is in use. -/
theorem retPopsTheReturnAddress : Obligations.RetPopsTheReturnAddress := by
  refine fun s => ⟨fun h => ⟨_, exec_ret_of_pushed h, BitVec.toNat_add _ _, ?_, ?_⟩,
    fun h => ⟨_, exec_ret_of_empty (BitVec.eq_of_toNat_eq h), s.raise_raised _⟩⟩
  · show (s.sp - 1).toNat + 1 = s.sp.toNat
    bv_omega
  · exact ((KeepsAllBut.refl (· = .sp) s).setSp rfl _).jumpTo _

/-! Skips: on equality for SE, on difference for SNE (R104 to R107). -/

section
variable (s : State) (a b : Byte)

theorem State.skipIf_beq_pc : (s.skipIf (a == b)).pc = if a = b then s.pc + 4 else s.pc + 2 := by
  by_cases h : a = b <;> simp [h]

theorem State.skipIf_bne_pc : (s.skipIf (a != b)).pc = if a = b then s.pc + 2 else s.pc + 4 := by
  by_cases h : a = b <;> simp [h]

end

/-- Settles O35, with NN as the byte compared. -/
theorem skipsOnImmediate : Obligations.SkipsOnImmediate := fun x nn s =>
  ⟨⟨_, rfl, s.skipIf_beq_pc (s.getV x) nn, (KeepsAllBut.refl _ s).skipIf _⟩,
    ⟨_, rfl, s.skipIf_bne_pc (s.getV x) nn, (KeepsAllBut.refl _ s).skipIf _⟩⟩

/-- Settles O36, with V[Y] as the byte compared. -/
theorem skipsOnRegisters : Obligations.SkipsOnRegisters := fun x y s =>
  ⟨⟨_, rfl, s.skipIf_beq_pc (s.getV x) (s.getV y), (KeepsAllBut.refl _ s).skipIf _⟩,
    ⟨_, rfl, s.skipIf_bne_pc (s.getV x) (s.getV y), (KeepsAllBut.refl _ s).skipIf _⟩⟩

end Sys2Proof.Machine
end

section
/-! SUPPORT. The statements of the family of spec/41_alu.md: loads, moves and logic write V[X] alone; sums, differences
and shifts write their flag into VF first and compute the result from the registers as that write left them. -/

namespace Sys2Proof.Machine

/-! Instructions that write V[X] alone (R111 to R116). -/

section
variable (s : State) (x : RegId) (b : Byte)

theorem State.getV_setV_self : (s.setV x b).getV x = b := by rw [State.getV_setV, if_pos rfl]

theorem State.setV_advance_keepsAllBut : KeepsAllBut (fun p => p = .reg x) s (s.setV x b).advance :=
  ((KeepsAllBut.refl (fun p => p = .reg x) s).setV rfl b).advance

end

/-- Settles O37: the byte sum is the sum modulo 256, and no second register is written. -/
theorem loadAndAddImmediate : Obligations.LoadAndAddImmediate := fun x nn s =>
  ⟨⟨_, rfl, s.getV_setV_self x nn, rfl, s.setV_advance_keepsAllBut x _⟩,
    ⟨_, rfl, (congrArg BitVec.toNat (s.getV_setV_self x _)).trans (BitVec.toNat_add _ _), rfl,
      s.setV_advance_keepsAllBut x _⟩⟩

/-- Settles O38: each of the four is one write of V[X]. -/
theorem moveAndLogic : Obligations.MoveAndLogic := fun x _ s =>
  ⟨⟨_, rfl, s.getV_setV_self x _, rfl, s.setV_advance_keepsAllBut x _⟩,
    ⟨_, rfl, s.getV_setV_self x _, rfl, s.setV_advance_keepsAllBut x _⟩,
    ⟨_, rfl, s.getV_setV_self x _, rfl, s.setV_advance_keepsAllBut x _⟩,
    ⟨_, rfl, s.getV_setV_self x _, rfl, s.setV_advance_keepsAllBut x _⟩⟩

/-! The flags and results as numbers (R117 to R121). -/

theorem flagByte_toNat (p : Prop) [Decidable p] : (flagByte (decide p)).toNat = if p then 1 else 0 := by
  by_cases h : p <;> simp [flagByte, h]

section
variable (a b : Byte)

theorem carryFlag_toNat : (carryFlag a b).toNat = if 255 < a.toNat + b.toNat then 1 else 0 := flagByte_toNat _

theorem noBorrowFlag_toNat : (noBorrowFlag a b).toNat = if b.toNat ≤ a.toNat then 1 else 0 := flagByte_toNat _

theorem byte_sub_toNat : (a - b).toNat = (a.toNat + 256 - b.toNat) % 256 := by
  have hb := b.isLt
  rw [BitVec.toNat_sub]
  omega

theorem byte_shiftLeft_one_toNat : (a <<< 1).toNat = 2 * a.toNat % 256 := by
  rw [BitVec.toNat_shiftLeft, Nat.shiftLeft_eq, Nat.mul_comm, Nat.pow_one]

theorem lowBitFlag_toNat : (lowBitFlag a).toNat = a.toNat % 2 := by
  rw [lowBitFlag, BitVec.toNat_and]
  exact Nat.and_one_is_mod _

theorem highBitFlag_toNat : (highBitFlag a).toNat = a.toNat / 128 := by
  have ha := a.isLt
  have hbit : (highBitFlag a).toNat = a.toNat / 128 % 2 := by
    rw [highBitFlag, BitVec.toNat_and, BitVec.toNat_ushiftRight, Nat.shiftRight_eq_div_pow]
    exact Nat.and_one_is_mod _
  omega

end

/-! The flag first, then the result (R110, D13): the result reads the flag wherever it reads VF. -/

section
variable (s : State) (flag : Byte) (x : RegId)

theorem State.flagThenResult_advance_keepsAllBut (result : State → Byte) :
    KeepsAllBut (fun p => p = .reg x ∨ p = .reg 15) s (s.flagThenResult flag x result).advance :=
  (((KeepsAllBut.refl (fun p => p = .reg x ∨ p = .reg 15) s).setV (.inr rfl) flag).setV (.inl rfl) _).advance

theorem State.getV_flagThenResult_dest (result : State → Byte) :
    (s.flagThenResult flag x result).getV x = result (s.setV .vf flag) := State.getV_setV_self _ x _

theorem State.getV_flagThenResult_vf {x : RegId} (hx : x ≠ 15) (result : State → Byte) :
    (s.flagThenResult flag x result).getV 15 = flag := by
  rw [State.getV_flagThenResult, if_neg hx.symm, if_pos rfl]

/-- An operand other than VF is read as it was before the flag was written. -/
theorem State.getV_setV_vf {r : RegId} (hr : r ≠ 15) : (s.setV .vf flag).getV r = s.getV r := by
  rw [State.getV_setV, if_neg hr]

end

/-- Settles O39: the sum reads the carry in place of V[X], of V[Y] or of both where they are VF. -/
theorem addRegisters : Obligations.AddRegisters := by
  intro x y s
  have hresult := s.getV_flagThenResult_dest (carryFlag (s.getV x) (s.getV y)) x fun t => t.getV x + t.getV y
  have hflag (hx : x ≠ 15) := congrArg BitVec.toNat (s.getV_flagThenResult_vf (carryFlag (s.getV x) (s.getV y)) hx
    fun t => t.getV x + t.getV y)
  rw [carryFlag_toNat] at hflag
  refine ⟨_, rfl, rfl, s.flagThenResult_advance_keepsAllBut _ x _, fun hx hy => ⟨?_, hflag hx⟩, ?_, ?_, ?_⟩ <;>
    simp only [State.advance_getV]
  · rw [hresult, State.getV_setV_vf s _ hx, State.getV_setV_vf s _ hy, BitVec.toNat_add]
  · rintro rfl hy
    rw [hresult, State.getV_setV_self, State.getV_setV_vf s _ hy, BitVec.toNat_add, carryFlag_toNat]
  · rintro hx rfl
    refine ⟨?_, hflag hx⟩
    rw [hresult, State.getV_setV_self, State.getV_setV_vf s _ hx, BitVec.toNat_add, carryFlag_toNat]
  · rintro rfl rfl
    rw [hresult, State.getV_setV_self, BitVec.toNat_add, carryFlag_toNat, Nat.two_mul]
    split <;> rfl

/-- Both subtractions, by where the minuend V[A] and the subtrahend V[B] stand: the difference in V[X] reads the flag
in place of an operand that is VF, and VF holds the flag unless it is V[X]. -/
theorem State.difference_cases (s : State) (x a b : RegId) :
    let t := s.flagThenResult (noBorrowFlag (s.getV a) (s.getV b)) x fun u => u.getV a - u.getV b
    (a ≠ 15 → b ≠ 15 → (t.getV x).toNat = ((s.getV a).toNat + 256 - (s.getV b).toNat) % 256) ∧
    (a = 15 → b ≠ 15 → (t.getV x).toNat =
      ((if (s.getV b).toNat ≤ (s.getV 15).toNat then 1 else 0) + 256 - (s.getV b).toNat) % 256) ∧
    (a ≠ 15 → b = 15 → (t.getV x).toNat =
      ((s.getV a).toNat + 256 - if (s.getV 15).toNat ≤ (s.getV a).toNat then 1 else 0) % 256) ∧
    (a = 15 → b = 15 → t.getV x = 0) ∧
    (x ≠ 15 → (t.getV 15).toNat = if (s.getV b).toNat ≤ (s.getV a).toNat then 1 else 0) := by
  simp only [State.getV_flagThenResult_dest]
  refine ⟨fun ha hb => ?_, ?_, ?_, ?_, fun hx => ?_⟩
  · rw [State.getV_setV_vf s _ ha, State.getV_setV_vf s _ hb, byte_sub_toNat]
  · rintro rfl hb
    rw [State.getV_setV_self, State.getV_setV_vf s _ hb, byte_sub_toNat, noBorrowFlag_toNat]
  · rintro ha rfl
    rw [State.getV_setV_self, State.getV_setV_vf s _ ha, byte_sub_toNat, noBorrowFlag_toNat]
  · rintro rfl rfl
    exact BitVec.sub_self _
  · rw [State.getV_flagThenResult_vf s _ hx, noBorrowFlag_toNat]

/-- Settles O40: V[X] is the minuend. -/
theorem subtractRegisters : Obligations.SubtractRegisters := by
  intro x y s
  obtain ⟨hneither, hminuend, hsubtrahend, hboth, hflag⟩ := s.difference_cases x x y
  refine ⟨_, rfl, rfl, s.flagThenResult_advance_keepsAllBut _ x _, fun hx hy => ⟨hneither hx hy, hflag hx⟩, ?_, ?_, ?_⟩
  · rintro rfl hy
    exact hminuend rfl hy
  · rintro hx rfl
    exact ⟨hsubtrahend hx rfl, hflag hx⟩
  · rintro rfl rfl
    exact hboth rfl rfl

/-- Settles O41: V[X] is the subtrahend. -/
theorem subtractRegistersReversed : Obligations.SubtractRegistersReversed := by
  intro x y s
  obtain ⟨hneither, hminuend, hsubtrahend, hboth, hflag⟩ := s.difference_cases x y x
  refine ⟨_, rfl, rfl, s.flagThenResult_advance_keepsAllBut _ x _, fun hx hy => ⟨hneither hy hx, hflag hx⟩, ?_, ?_, ?_⟩
  · rintro rfl hy
    exact hsubtrahend hy rfl
  · rintro hx rfl
    exact ⟨hminuend rfl hx, hflag hx⟩
  · rintro rfl rfl
    exact hboth rfl rfl

/-- A shift: V[X] holds the shifted operand and VF the flag, or with X = 0xF VF the shifted flag. -/
theorem State.flagThenResult_shift (s : State) (flag : Byte) (x : RegId) (shift : Byte → Byte) :
    let t := s.flagThenResult flag x fun u => shift (u.getV x)
    (x ≠ 15 → t.getV x = shift (s.getV x) ∧ t.getV 15 = flag) ∧ (x = 15 → t.getV 15 = shift flag) := by
  refine ⟨fun hx => ⟨?_, s.getV_flagThenResult_vf flag hx _⟩, ?_⟩
  · rw [State.getV_flagThenResult_dest, State.getV_setV_vf s flag hx]
  · rintro rfl
    rw [State.getV_flagThenResult_dest, State.getV_setV_self]

/-- Settles O42: a flag of 0 or 1 halved is 0. -/
theorem shiftRight : Obligations.ShiftRight := by
  intro x y s
  obtain ⟨hother, hvf⟩ := s.flagThenResult_shift (lowBitFlag (s.getV x)) x fun a => a >>> 1
  refine ⟨_, rfl, rfl, s.flagThenResult_advance_keepsAllBut _ x _, fun hx => ?_, fun hx => ?_⟩ <;>
    simp only [State.advance_getV]
  · obtain ⟨hresult, hflag⟩ := hother hx
    exact ⟨by rw [hresult, BitVec.toNat_ushiftRight, Nat.shiftRight_one], by rw [hflag, lowBitFlag_toNat]⟩
  · apply BitVec.eq_of_toNat_eq
    rw [hvf hx, BitVec.toNat_ushiftRight, Nat.shiftRight_one, lowBitFlag_toNat]
    exact Nat.div_eq_of_lt (Nat.mod_lt _ Nat.two_pos)

/-- Settles O43: the flag doubled is 2 exactly when the top bit was set. -/
theorem shiftLeft : Obligations.ShiftLeft := by
  intro x y s
  obtain ⟨hother, hvf⟩ := s.flagThenResult_shift (highBitFlag (s.getV x)) x fun a => a <<< 1
  refine ⟨_, rfl, rfl, s.flagThenResult_advance_keepsAllBut _ x _, fun hx => ?_, fun hx => ?_⟩ <;>
    simp only [State.advance_getV]
  · obtain ⟨hresult, hflag⟩ := hother hx
    exact ⟨by rw [hresult, byte_shiftLeft_one_toNat], by rw [hflag, highBitFlag_toNat]⟩
  · have hlt := (s.getV 15).isLt
    rw [hvf hx, byte_shiftLeft_one_toNat, highBitFlag_toNat, hx]
    split <;> omega

end Sys2Proof.Machine
end

section
/-! SUPPORT. The statements of the family of spec/42_index_memory.md: what I holds after each of its instructions, the
bytes a store leaves in memory, the registers a load fills, and what each leaves unchanged. -/

namespace Sys2Proof.Machine

/-! Frames of the index and memory instructions: a store of several bytes writes its range, a load the registers up to
V[X]. -/

section
variable {w : Part → Prop} {s t : State}

theorem KeepsAllBut.setIndex (h : KeepsAllBut w s t) (hw : w .index) (i : Word) : KeepsAllBut w s (t.setIndex i) :=
  { h with index := absurd hw }

theorem KeepsAllBut.writeByte (h : KeepsAllBut w s t) {a : Nat} (hw : w (.byte a)) (b : Byte) :
    KeepsAllBut w s (t.writeByte a b) :=
  { h with
    bytes := fun c hc => by
      rw [State.readByte_writeByte, if_neg fun hca : c = a => hc (hca ▸ hw)]
      exact h.bytes c hc }

theorem KeepsAllBut.writeBytes (h : KeepsAllBut w s t) {a : Nat} {bs : List Byte}
    (hw : ∀ c, a ≤ c → c < a + bs.length → w (.byte c)) : KeepsAllBut w s (t.writeBytes a bs) := by
  induction bs generalizing t a with
  | nil => exact h
  | cons b bs ih =>
    rw [List.length_cons] at hw
    exact ih (h.writeByte (hw a le_rfl (by omega)) b) fun c hac hc => hw c (by omega) (by omega)

/-- A new register file keeps the frame when it differs only in registers the frame leaves out. -/
theorem KeepsAllBut.setRegs (h : KeepsAllBut w s t) {v : Vector Byte 16}
    (hv : ∀ r : RegId, ¬ w (.reg r) → v[r] = t.getV r) : KeepsAllBut w s { t with v := v } :=
  { h with regs := fun r hr => (hv r hr).trans (h.regs r hr) }

theorem KeepsAllBut.loadRegs (h : KeepsAllBut w s t) {x : RegId} (hw : ∀ r ≤ x, w (.reg r)) (a : Nat) :
    KeepsAllBut w s (t.loadRegs a x) :=
  h.setRegs fun r hr => (t.getV_loadRegs a x r).trans (if_neg fun hrx => hr (hw r hrx))

end

/-! The values of I (R131 to R133, R135, R136). -/

/-- Five times the largest byte fits in I, so the product of FX29 is never reduced. -/
theorem glyphAddress_toNat (b : Byte) : (glyphAddress b).toNat = b.toNat * 5 := by
  have hb := b.isLt
  rw [glyphAddress, BitVec.toNat_mul, zextByte_toNat]
  exact Nat.mod_eq_of_lt (show b.toNat * 5 < 65536 by omega)

theorem indexFlag_toNat (i : Word) (b : Byte) :
    (indexFlag i b).toNat = if 0xFFF < i.toNat + b.toNat then 1 else 0 := flagByte_toNat _

theorem index_add_zextByte_toNat (i : Word) (b : Byte) :
    (i + zextByte b).toNat = (i.toNat + b.toNat) % 65536 := by
  rw [BitVec.toNat_add, zextByte_toNat]

theorem State.indexPast_toNat (s : State) (x : RegId) :
    (s.indexPast x).toNat = (s.index.toNat + x.val + 1) % 65536 := by
  rw [State.indexPast, BitVec.toNat_add, BitVec.toNat_ofNat, Nat.add_mod_mod, regCount, Nat.add_assoc]

/-- Settles O45: NNN keeps its value in the 16 bits of I, and so does the product. -/
theorem loadIndex : Obligations.LoadIndex := fun x nnn s =>
  ⟨⟨_, rfl, zextNNN_toNat nnn, rfl, ((KeepsAllBut.refl (· = .index) s).setIndex rfl _).advance⟩,
    ⟨_, rfl, glyphAddress_toNat (s.getV x), rfl, ((KeepsAllBut.refl (· = .index) s).setIndex rfl _).advance⟩⟩

/-- Settles O46: V[X] is read again after VF was written, so the sum reads the flag where V[X] is VF. -/
theorem addToIndex : Obligations.AddToIndex := by
  intro x s
  refine ⟨_, rfl, rfl, (((KeepsAllBut.refl _ s).setV (.inr rfl) _).setIndex (.inl rfl) _).advance, ?_, ?_, ?_⟩ <;>
    simp only [State.advance_getV, State.setIndex_getV, State.advance_index, State.setIndex_index, State.setV_index]
  · rw [State.getV_setV_self, indexFlag_toNat]
  · intro hx
    rw [index_add_zextByte_toNat, State.getV_setV_vf s _ hx]
  · rintro rfl
    rw [index_add_zextByte_toNat, State.getV_setV_self, indexFlag_toNat]

/-! Stores and loads within memory (R134 to R136). -/

theorem State.readByte_writeBytes_add (s : State) (a : Nat) {bs : List Byte} {k : Nat} (hk : k < bs.length) :
    (s.writeBytes a bs).readByte (a + k) = bs.getD k 0 := by
  rw [State.readByte_writeBytes, if_pos (by omega), Nat.add_sub_cancel_left]

theorem ofNat_toNat_of_digit {n : Nat} (h : n < 10) : (BitVec.ofNat 8 n).toNat = n :=
  (BitVec.toNat_ofNat n 8).trans (Nat.mod_eq_of_lt (by omega))

/-- Settles O47: each digit fits in its byte, and the store reaches the three addresses from I up. -/
theorem storeDecimalDigits : Obligations.StoreDecimalDigits := by
  intro x s h
  have hv := (s.getV x).isLt
  have hstored {k : Nat} (hk : k < 3) := congrArg BitVec.toNat
    (s.readByte_writeBytes_add s.index.toNat (bs := bcdDigits (s.getV x)) hk)
  refine ⟨_, execLdB_of_inside h, ?_, ?_, ?_, by simp,
    ((KeepsAllBut.refl _ s).writeBytes fun c hlo hhi => ⟨c, rfl, hlo, Nat.le_of_lt_succ hhi⟩).advance⟩
  · exact (hstored (k := 0) (by decide)).trans (ofNat_toNat_of_digit (by omega))
  · exact (hstored (k := 1) (by decide)).trans (ofNat_toNat_of_digit (by omega))
  · exact (hstored (k := 2) (by decide)).trans (ofNat_toNat_of_digit (by omega))

/-- Settles O48: byte K of the stored list is V[K], and the list ends at I + X. -/
theorem storeRegisters : Obligations.StoreRegisters := by
  intro x s h
  have hlen : (s.regsUpTo x).length = x.val + 1 := s.regsUpTo_length x
  refine ⟨_, execStRegs_of_inside h, fun k hk => ?_, s.indexPast_toNat x, by simp,
    (((KeepsAllBut.refl _ s).writeBytes fun c hlo hhi => ?_).setIndex (.inl rfl) _).advance⟩
  · have hkx := Fin.le_def.mp hk
    exact (s.readByte_writeBytes_add _ (by omega)).trans (s.regsUpTo_getD x k hk)
  · rw [hlen] at hhi
    exact .inr ⟨c, rfl, hlo, Nat.le_of_lt_succ hhi⟩

theorem execLdRegs_of_inside {s : State} {x : RegId} (h : s.index.toNat + x.val ≤ 0xFFF) :
    exec (.ldRegs x) s = .next ((s.loadRegs s.base x).setIndex (s.indexPast x)).advance :=
  if_pos (State.rangeInMemory_succ.mpr h)

/-- Settles O49: the load fills the registers up to V[X] and writes no other. -/
theorem loadRegisters : Obligations.LoadRegisters := by
  intro x s h
  refine ⟨_, execLdRegs_of_inside h, fun k hk => ?_, s.indexPast_toNat x, by simp,
    (((KeepsAllBut.refl _ s).loadRegs (fun r hr => .inr ⟨r, rfl, hr⟩) _).setIndex (.inl rfl) _).advance⟩
  rw [State.advance_getV, State.setIndex_getV, State.getV_loadRegs, if_pos hk, State.base]

end Sys2Proof.Machine
end

section
/-! SUPPORT. The statements of the family of spec/43_display.md: CLS blanks the frame; DXYN XORs a mask, the sprite laid
over the grid, onto the frame, so drawing it again undoes it, and reports in VF whether some pixel went off. -/

namespace Sys2Proof.Machine

/-- Both display instructions write the frame and `drawFlag`. -/
theorem KeepsAllBut.setFrame {w : Part → Prop} {s t : State} (h : KeepsAllBut w s t) (hpixels : w .pixels)
    (hflag : w .drawFlag) (f : Frame) : KeepsAllBut w s (t.setFrame f) :=
  { h with
    pixels := absurd hpixels
    drawFlag := absurd hflag }

/-- Settles O52: every cell of the blank frame is 0. -/
theorem clsClearsTheFrame : Obligations.ClsClearsTheFrame := fun s =>
  ⟨_, rfl, fun _ _ => Frame.pixel_blank _ _, rfl, rfl,
    ((KeepsAllBut.refl _ s).setFrame (.inl rfl) (.inr rfl) _).advance⟩

/-! The two checks of DXYN (R142, D4, D5, D25). -/

theorem State.rangeInMemory_iff {s : State} {n : Nat} :
    s.rangeInMemory n = true ↔ n = 0 ∨ s.index.toNat + n ≤ 4096 := decide_eq_true_iff

theorem spriteFits_iff {x0 y0 rows : Nat} :
    spriteFits x0 y0 rows = true ↔ rows = 0 ∨ x0 ≤ 56 ∧ y0 + rows ≤ 32 := decide_eq_true_iff

section
variable {s t : State} {x y : RegId} {n : Nibble}

theorem exec_drw_of_outside_memory (hmem : ¬ s.rangeInMemory n.toNat = true) :
    exec (.drw x y n) s = .next (s.raise .memoryOutOfRange) := if_pos hmem

section
variable (hmem : s.rangeInMemory n.toNat = true)
include hmem

theorem exec_drw_of_off_grid (hfit : ¬ spriteFits (s.getV x).toNat (s.getV y).toNat n.toNat = true) :
    exec (.drw x y n) s = .next (s.raise .drawOutOfBounds) :=
  (if_neg (not_not_intro hmem)).trans (if_pos hfit)

theorem exec_drw_of_fits (hfit : spriteFits (s.getV x).toNat (s.getV y).toNat n.toNat = true) :
    exec (.drw x y n) s = .next (s.drawSprite (s.getV x).toNat (s.getV y).toNat n.toNat).advance :=
  (if_neg (not_not_intro hmem)).trans (if_neg (not_not_intro hfit))

end

/-- A DXYN that left no fault passed both checks and drew. -/
theorem exec_drw_completed (h : exec (.drw x y n) s = .next t) (hok : t.fault = none) :
    s.rangeInMemory n.toNat = true ∧ spriteFits (s.getV x).toNat (s.getV y).toNat n.toNat = true ∧
      t = (s.drawSprite (s.getV x).toNat (s.getV y).toNat n.toNat).advance := by
  obtain ⟨-, rfl⟩ | ⟨hmem, h⟩ := raise_or_cases h
  · cases hok
  obtain ⟨-, rfl⟩ | ⟨hfit, h⟩ := raise_or_cases h
  · cases hok
  cases h
  exact ⟨not_not.mp hmem, not_not.mp hfit, rfl⟩

end

/-- Settles O54: the memory check comes first, and the grid is checked only where it passes. -/
theorem drwFaultsMemoryFirst : Obligations.DrwFaultsMemoryFirst := by
  refine fun x y n s hn => ⟨fun hout => ⟨_, exec_drw_of_outside_memory ?_, s.raise_raised _⟩,
    fun hin hoff => ⟨_, exec_drw_of_off_grid ?_ ?_, s.raise_raised _⟩⟩
  · rw [State.rangeInMemory_iff]
    omega
  · rw [State.rangeInMemory_iff]
    omega
  · rw [spriteFits_iff]
    omega

/-! The sprite as a mask over the grid (R140, D15). -/

/-- The sprite bit over pixel (px, py) when the rows `bs` are drawn at (x0, y0); false outside their rectangle. -/
def spriteMask (bs : List Byte) (x0 y0 px py : Nat) : Bool :=
  decide (y0 ≤ py ∧ py < y0 + bs.length ∧ x0 ≤ px ∧ px < x0 + 8) && spriteBit (bs.getD (py - y0) 0) (px - x0)

theorem spriteMask_iff {bs : List Byte} {x0 y0 px py : Nat} :
    spriteMask bs x0 y0 px py = true ↔ (y0 ≤ py ∧ py < y0 + bs.length ∧ x0 ≤ px ∧ px < x0 + 8) ∧
      spriteBit (bs.getD (py - y0) 0) (px - x0) = true := by
  rw [spriteMask, Bool.and_eq_true, decide_eq_true_iff]

theorem spriteMask_nil (x0 y0 px py : Nat) : spriteMask [] x0 y0 px py = false :=
  Bool.eq_false_iff.mpr fun h => by
    obtain ⟨⟨hlo, hhi, -⟩, -⟩ := spriteMask_iff.mp h
    exact absurd hhi (Nat.not_lt.mpr hlo)

theorem State.readBytes_getD (s : State) {a n k : Nat} (hk : k < n) :
    (s.readBytes a n).getD k 0 = s.readByte (a + k) := by
  have hlen : k < (s.readBytes a n).length := by rwa [s.readBytes_length]
  rw [List.getD_eq_getElem _ _ hlen, s.readBytes_getElem]

/-- The mask of rows read from memory, by the bytes of memory themselves. -/
theorem spriteMask_readBytes (s : State) (a n x0 y0 px py : Nat) :
    spriteMask (s.readBytes a n) x0 y0 px py =
      (decide (y0 ≤ py ∧ py < y0 + n ∧ x0 ≤ px ∧ px < x0 + 8) &&
        spriteBit (s.readByte (a + (py - y0))) (px - x0)) := by
  rw [spriteMask, s.readBytes_length]
  by_cases hin : y0 ≤ py ∧ py < y0 + n ∧ x0 ≤ px ∧ px < x0 + 8
  · rw [s.readBytes_getD (by omega)]
  · rw [decide_eq_false hin, Bool.false_and, Bool.false_and]

/-- Some pixel of the grid that is on in `f` is off in `g`. -/
def Frame.LosesPixel (f g : Frame) : Prop :=
  ∃ px py : Nat, px < 64 ∧ py < 32 ∧ f.pixel px py = true ∧ g.pixel px py = false

section
variable {bs : List Byte} {x0 y0 : Nat} (hfit : spriteFits x0 y0 bs.length = true)
include hfit

/-- A sprite that fits has no row, and then draws nothing wherever it stands, or lies inside the grid. -/
theorem spriteFits_cases : bs = [] ∨ x0 ≤ 56 ∧ y0 + bs.length ≤ 32 :=
  (spriteFits_iff.mp hfit).imp_left List.length_eq_zero_iff.mp

theorem blitRows_pixel (p : Frame × Bool) (px py : Nat) :
    (blitRows bs x0 y0 p).1.pixel px py = (p.1.pixel px py ^^ spriteMask bs x0 y0 px py) := by
  obtain rfl | ⟨hx, hy⟩ := spriteFits_cases hfit
  · rw [spriteMask_nil, Bool.xor_false, blitRows]
  · exact (blitRows_spec bs x0 y0 hx hy p).1 px py

/-- A 1 bit over a pixel that is on turns it off, and nothing else turns a pixel off. -/
theorem blitRows_hit_iff (f : Frame) :
    (blitRows bs x0 y0 (f, false)).2 = true ↔ f.LosesPixel (blitRows bs x0 y0 (f, false)).1 := by
  obtain rfl | ⟨hx, hy⟩ := spriteFits_cases hfit
  · exact iff_of_false Bool.false_ne_true fun ⟨_, _, _, _, hon, hoff⟩ => Bool.false_ne_true (hoff.symm.trans hon)
  have hlost (px py : Nat) : f.pixel px py = true ∧ (blitRows bs x0 y0 (f, false)).1.pixel px py = false ↔
      f.pixel px py = true ∧ spriteMask bs x0 y0 px py = true := by
    rw [blitRows_pixel hfit]
    exact and_congr_right fun hon => by simp [hon]
  simp only [Frame.LosesPixel, hlost, spriteMask_iff]
  rw [(blitRows_spec bs x0 y0 hx hy (f, false)).2]
  constructor
  · rintro (h | ⟨row, hrow, col, hcol, hbit, hon⟩)
    · cases h
    · refine ⟨x0 + col, y0 + row, by omega, by omega, hon, by omega, ?_⟩
      rwa [Nat.add_sub_cancel_left, Nat.add_sub_cancel_left]
  · rintro ⟨px, py, -, -, hon, ⟨hlo, hhi, hleft, hright⟩, hbit⟩
    refine .inr ⟨py - y0, by omega, px - x0, by omega, hbit, ?_⟩
    rwa [Nat.add_sub_cancel' hleft, Nat.add_sub_cancel' hlo]

end

/-! The whole draw (R142, D14). -/

theorem flagByte_eq_one_iff {c : Bool} : flagByte c = 1 ↔ c = true := by cases c <;> decide

theorem flagByte_eq_zero_iff {c : Bool} : flagByte c = 0 ↔ ¬ c = true := by cases c <;> decide

section
variable {s : State} {x0 y0 rows : Nat} (hfit : spriteFits x0 y0 rows = true)
include hfit

theorem State.drawSprite_pixel (px py : Nat) :
    (s.drawSprite x0 y0 rows).framebuffer.pixel px py =
      (s.framebuffer.pixel px py ^^ spriteMask (s.readBytes s.base rows) x0 y0 px py) :=
  blitRows_pixel (by rwa [s.readBytes_length]) _ px py

theorem State.drawSprite_hit_iff :
    (blitRows (s.readBytes s.base rows) x0 y0 (s.framebuffer, false)).2 = true ↔
      s.framebuffer.LosesPixel (s.drawSprite x0 y0 rows).framebuffer :=
  blitRows_hit_iff (by rwa [s.readBytes_length]) _

theorem State.drawSprite_vf_eq_one_iff :
    (s.drawSprite x0 y0 rows).getV 15 = 1 ↔ s.framebuffer.LosesPixel (s.drawSprite x0 y0 rows).framebuffer := by
  rw [← State.drawSprite_hit_iff hfit, State.drawSprite, State.getV_setV_self, flagByte_eq_one_iff]

theorem State.drawSprite_vf_eq_zero_iff :
    (s.drawSprite x0 y0 rows).getV 15 = 0 ↔ ¬ s.framebuffer.LosesPixel (s.drawSprite x0 y0 rows).framebuffer := by
  rw [← State.drawSprite_hit_iff hfit, State.drawSprite, State.getV_setV_self, flagByte_eq_zero_iff]

end

theorem State.drawSprite_keepsAllBut (s : State) (x0 y0 rows : Nat) :
    KeepsAllBut (fun p => p = .pixels ∨ p = .drawFlag ∨ p = .reg 15) s (s.drawSprite x0 y0 rows) :=
  ((KeepsAllBut.refl _ s).setFrame (.inl rfl) (.inr (.inl rfl)) _).setV (.inr (.inr rfl)) _

/-- Settles O53: both checks pass, and the mask is the sprite's bytes in memory. -/
theorem drwXorsTheSprite : Obligations.DrwXorsTheSprite := by
  intro x y n s hmem hgrid
  have hfit := spriteFits_iff.mpr hgrid
  refine ⟨_, exec_drw_of_fits (State.rangeInMemory_iff.mpr (by omega)) hfit, fun px py _ _ => ?_,
    (State.drawSprite_vf_eq_one_iff hfit).mpr, (State.drawSprite_vf_eq_zero_iff hfit).mpr, rfl, rfl,
    (s.drawSprite_keepsAllBut _ _ _).advance⟩
  exact (State.drawSprite_pixel hfit px py).trans (congrArg _ (spriteMask_readBytes s _ _ _ _ px py))

/-! Drawing twice (R143). -/

theorem State.readBytes_congr {s u : State} {a n : Nat}
    (h : ∀ k : Nat, k < n → u.readByte (a + k) = s.readByte (a + k)) : u.readBytes a n = s.readBytes a n :=
  List.map_congr_left fun k hk => h k (List.mem_range.mp hk)

/-- The same rows drawn at the same place on the frame the first draw left give back the frame before it. -/
theorem State.drawSprite_drawSprite_pixel {s u : State} {x0 y0 rows : Nat} (hfit : spriteFits x0 y0 rows = true)
    (hframe : u.framebuffer = (s.drawSprite x0 y0 rows).framebuffer)
    (hbytes : u.readBytes u.base rows = s.readBytes s.base rows) (px py : Nat) :
    (u.drawSprite x0 y0 rows).framebuffer.pixel px py = s.framebuffer.pixel px py := by
  rw [State.drawSprite_pixel hfit, hframe, hbytes, State.drawSprite_pixel hfit, Bool.xor_assoc, Bool.xor_self,
    Bool.xor_false]

/-- Settles O55: a mask XORed twice cancels, so what the second draw turns off is what the first turned on. -/
theorem doubleDrawRestoresTheFrame : Obligations.DoubleDrawRestoresTheFrame := by
  intro x y n s t u _ hdraw hok hframe hx hy hindex hbytes
  obtain ⟨hmem, hfit, rfl⟩ := exec_drw_completed hdraw hok
  have hrows : u.readBytes u.base n.toNat = s.readBytes s.base n.toNat := by
    rw [State.base, hindex]
    exact State.readBytes_congr hbytes
  have hback := State.drawSprite_drawSprite_pixel hfit hframe hrows
  have hagain : exec (.drw x y n) u =
      .next (u.drawSprite (s.getV x).toNat (s.getV y).toNat n.toNat).advance := by
    rw [← hx, ← hy] at hfit ⊢
    exact exec_drw_of_fits (by rwa [State.rangeInMemory, hindex]) hfit
  refine ⟨_, hagain, fun px py _ _ => hback px py, State.drawSprite_vf_eq_one_iff hfit,
    (State.drawSprite_vf_eq_one_iff hfit).trans ?_⟩
  simp only [Frame.LosesPixel, hback, hframe, State.advance_framebuffer, and_comm]

end Sys2Proof.Machine
end

section
/-! SUPPORT. The statements of the family of spec/44_keypad_timers.md: the skips on a key, FX0A with and without a key
pressed, the transfers of the two timers, and the timer phase of the step that makes such a transfer. -/

namespace Sys2Proof.Machine

/-! Skips on a key: on it pressed for EX9E, on it released for EXA1 (R151, R152, D7). -/

section
variable {s : State} {x : RegId}

theorem State.skipIf_pc_eq_ite (s : State) (c : Bool) :
    (s.skipIf c).pc = if c = true then s.pc + 4 else s.pc + 2 := apply_ite (s.pc + ·) _ 4 2

theorem State.skipIf_not_pc_eq_ite (s : State) (c : Bool) :
    (s.skipIf !c).pc = if c = true then s.pc + 2 else s.pc + 4 := by cases c <;> rfl

theorem exec_skp_of_key (h : (s.getV x).toNat ≤ 15) :
    exec (.skp x) s = .next (s.skipIf (s.keyDown (s.getV x).toNat)) := if_neg h.not_gt

theorem exec_sknp_of_key (h : (s.getV x).toNat ≤ 15) :
    exec (.sknp x) s = .next (s.skipIf !s.keyDown (s.getV x).toNat) := if_neg h.not_gt

theorem exec_skp_of_no_key (h : 15 < (s.getV x).toNat) :
    exec (.skp x) s = .next (s.raise .keyIndexOutOfRange) := if_pos h

theorem exec_sknp_of_no_key (h : 15 < (s.getV x).toNat) :
    exec (.sknp x) s = .next (s.raise .keyIndexOutOfRange) := if_pos h

end

/-- Settles O56, by whether V[X] numbers one of the 16 keys. -/
theorem skipsOnKey : Obligations.SkipsOnKey := by
  refine fun x s => ⟨fun hkey => ⟨?_, ?_⟩, fun hnone => ⟨?_, ?_⟩⟩
  · exact ⟨_, exec_skp_of_key hkey, s.skipIf_pc_eq_ite _, (KeepsAllBut.refl _ s).skipIf _⟩
  · exact ⟨_, exec_sknp_of_key hkey, s.skipIf_not_pc_eq_ite _, (KeepsAllBut.refl _ s).skipIf _⟩
  · exact ⟨_, exec_skp_of_no_key hnone, s.raise_raised _⟩
  · exact ⟨_, exec_sknp_of_no_key hnone, s.raise_raised _⟩

/-! FX0A (R153): it completes with the lowest pressed key, and with none its step does nothing. -/

section
variable {s : State} {x : RegId}

theorem State.lowestKey_eq_some_iff {k : Nat} :
    s.lowestKey = some k ↔ s.keyDown k = true ∧ k < 16 ∧ ∀ j < k, s.keyDown j = false := by
  simp [State.lowestKey, List.find?_range_eq_some]

theorem exec_ldVxK_of_some {k : Nat} (h : s.lowestKey = some k) :
    exec (.ldVxK x) s = .next (s.setV x (BitVec.ofNat 8 k)).advance := by
  simp only [exec, execLdVxK, h]

theorem exec_ldVxK_of_none (h : s.lowestKey = none) : exec (.ldVxK x) s = .next s := by
  simp only [exec, execLdVxK, h]

end

/-- Settles O57: a key number is below 16, so the byte written to V[X] is the number itself. -/
theorem awaitKeyTakesTheLowestKey : Obligations.AwaitKeyTakesTheLowestKey := by
  intro x s k hk hdown hlow
  have hlowest : s.lowestKey = some k := State.lowestKey_eq_some_iff.mpr ⟨hdown, hk, hlow⟩
  refine ⟨_, exec_ldVxK_of_some hlowest, ?_, rfl, s.setV_advance_keepsAllBut x _⟩
  rw [State.advance_getV, State.getV_setV_self, BitVec.toNat_ofNat, Nat.mod_eq_of_lt (by omega)]

/-- Settles O58: the instruction leaves the state as it is, and its step has no timer phase. -/
theorem waitingStepChangesNothing : Obligations.WaitingStepChangesNothing := by
  intro x s hf hpc hi hnone
  have hwait : exec (.ldVxK x) s = .next s := exec_ldVxK_of_none (State.lowestKey_none.mpr hnone)
  rw [step_of_exec_next hf (State.fetchable_iff.mpr hpc) hi hwait,
    afterExec_of_awaitsKey (awaitsKey_iff.mpr ⟨⟨x, rfl⟩, hnone⟩)]

/-! The timers: the transfers of FX07, FX15 and FX18, and the phase that ticks them in the same step (R150, R154 to
R156, R176, R177). -/

section
variable {w : Part → Prop} {s t : State}

theorem KeepsAllBut.setDelay (h : KeepsAllBut w s t) (hw : w .delayTimer) (b : Byte) :
    KeepsAllBut w s (t.setDelay b) :=
  { h with delayTimer := absurd hw }

theorem KeepsAllBut.setSound (h : KeepsAllBut w s t) (hw : w .soundTimer) (b : Byte) :
    KeepsAllBut w s (t.setSound b) :=
  { h with soundTimer := absurd hw }

end

/-- Settles O59: each of the three is one write and the advance of PC. -/
theorem timerTransfers : Obligations.TimerTransfers := fun x s =>
  ⟨⟨_, rfl, s.getV_setV_self x _, rfl, s.setV_advance_keepsAllBut x _⟩,
    ⟨_, rfl, rfl, rfl, ((KeepsAllBut.refl (· = .delayTimer) s).setDelay rfl _).advance⟩,
    ⟨_, rfl, rfl, rfl, ((KeepsAllBut.refl (· = .soundTimer) s).setSound rfl _).advance⟩⟩

theorem State.timerPhase_trace_eq_append (s : State) :
    s.timerPhase.trace = s.trace ++ (if s.soundTimer.toNat = 1 then [.beep] else []) := by
  have hone : s.soundTimer.toNat = 1 ↔ s.soundTimer = 1 := BitVec.toNat_inj (y := 1)
  simp only [State.timerPhase_trace, hone]
  split
  · rfl
  · exact (List.append_nil _).symm

theorem step_of_exec_completed {s t : State} {i : Instr} (hf : s.fault = none) (hpc : s.fetchable = true)
    (hi : decode s.fetchWord = .ok i) (h : exec i s = .next t) (hok : t.fault = none)
    (hgo : ¬ awaitsKey i s = true) : step s = .next t.timerPhase := by
  rw [step_of_exec_next hf hpc hi h, afterExec_of_completed hok hgo]

/-- Settles O60: the timer phase ticks the state that the instruction's own transfer left. -/
theorem timerWritesTickInTheirOwnStep : Obligations.TimerWritesTickInTheirOwnStep := by
  intro x s hf hpc
  have hfetch : s.fetchable = true := State.fetchable_iff.mpr hpc
  refine ⟨fun hi => ?_, fun hi => ?_, fun hi => ?_⟩
  · exact ⟨_, step_of_exec_completed hf hfetch hi rfl hf Bool.false_ne_true, tick_toNat _⟩
  · exact ⟨_, step_of_exec_completed hf hfetch hi rfl hf Bool.false_ne_true,
      tick_toNat _, State.timerPhase_trace_eq_append _⟩
  · exact ⟨_, step_of_exec_completed hf hfetch hi rfl hf Bool.false_ne_true, s.getV_setV_self x _, tick_toNat _⟩

end Sys2Proof.Machine
end

section
/-! SUPPORT. The statements of the family of spec/60_exceptions.md: an instruction either only raises a fault or
completes, and a completed one leaves both timers to the timer phase unless it is their own transfer; the halted step,
the reserved word, and the two host moves that write one part each. -/

namespace Sys2Proof.Machine

/-! Frames of the phases around the instruction, and of the two host moves (R170, R176, R177, R179, R180). -/

section
variable {w : Part → Prop} {s t : State}

theorem KeepsAllBut.emit (h : KeepsAllBut w s t) (hw : w .trace) (e : Event) : KeepsAllBut w s (t.emit e) :=
  { h with trace := absurd hw }

theorem KeepsAllBut.timerPhase (h : KeepsAllBut w s t) (hdelay : w .delayTimer) (hsound : w .soundTimer)
    (htrace : w .trace) : KeepsAllBut w s t.timerPhase :=
  { h with
    delayTimer := absurd hdelay
    soundTimer := absurd hsound
    trace := absurd htrace }

theorem KeepsAllBut.setKeys (h : KeepsAllBut w s t) (hw : w .keypad) (k : BitVec 16) :
    KeepsAllBut w s (t.setKeys k) :=
  { h with keypad := absurd hw }

theorem KeepsAllBut.drawAck (h : KeepsAllBut w s t) (hw : w .drawFlag) : KeepsAllBut w s t.drawAck :=
  { h with drawFlag := absurd hw }

end

/-! What an instruction does to the latch and to the timers (R162, R176, R178). -/

@[simp] theorem State.writeBytes_delayTimer (s : State) (a : Nat) (bs : List Byte) :
    (s.writeBytes a bs).delayTimer = s.delayTimer := by
  obtain ⟨m, hm⟩ := s.writeBytes_eq a bs
  rw [hm]

@[simp] theorem State.writeBytes_soundTimer (s : State) (a : Nat) (bs : List Byte) :
    (s.writeBytes a bs).soundTimer = s.soundTimer := by
  obtain ⟨m, hm⟩ := s.writeBytes_eq a bs
  rw [hm]

/-- `i` raised no fault: the latch is as it was, and so is each timer but in the transfer that writes it. -/
structure Completed (i : Instr) (s t : State) : Prop where
  fault : t.fault = s.fault
  delayTimer : (∀ x, i ≠ .ldDTVx x) → t.delayTimer = s.delayTimer
  soundTimer : (∀ x, i ≠ .ldSTVx x) → t.soundTimer = s.soundTimer

theorem Completed.of_kept {i : Instr} {s t : State} (hfault : t.fault = s.fault)
    (hdelay : t.delayTimer = s.delayTimer) (hsound : t.soundTimer = s.soundTimer) : Completed i s t :=
  ⟨hfault, fun _ => hdelay, fun _ => hsound⟩

/-- Every check comes before the first write, so an instruction that raises a fault writes nothing else. -/
theorem exec_raises_or_completes {i : Instr} {s t : State} (h : exec i s = .next t) :
    (∃ c, t = s.raise c) ∨ Completed i s t := by
  cases i
  case ret =>
    obtain ⟨-, ht⟩ | ⟨-, -, rfl⟩ := execRet_cases h
    · exact .inl ⟨_, ht⟩
    · exact .inr (.of_kept rfl rfl rfl)
  case call =>
    obtain ⟨-, ht⟩ | ⟨-, -, rfl⟩ := execCall_cases h
    · exact .inl ⟨_, ht⟩
    · exact .inr (.of_kept rfl rfl rfl)
  case drw =>
    refine (execDrw_cases h).imp_right ?_
    rintro rfl
    exact .of_kept rfl rfl rfl
  case skp | sknp =>
    obtain ⟨-, ht⟩ | ⟨-, h⟩ := raise_or_cases h
    · exact .inl ⟨_, ht⟩
    · cases h
      exact .inr (.of_kept rfl rfl rfl)
  case ldB | stRegs | ldRegs =>
    obtain ⟨-, rfl⟩ | ⟨-, ht⟩ := if_range_cases h
    · exact .inr (.of_kept (by simp) (by simp) (by simp))
    · exact .inl ⟨_, ht⟩
  case ldVxK =>
    simp only [exec, execLdVxK] at h
    split at h <;> cases h <;> exact .inr (.of_kept rfl rfl rfl)
  case ldDTVx x =>
    cases h
    exact .inr ⟨rfl, fun hne => absurd rfl (hne x), fun _ => rfl⟩
  case ldSTVx x =>
    cases h
    exact .inr ⟨rfl, fun _ => rfl, fun hne => absurd rfl (hne x)⟩
  case cls | jp | jpV0 | seImm | sneImm | seReg | sneReg | ldImm | addImm | ldReg | orReg | andReg | xorReg | addReg |
      subReg | shr | subnReg | shl | ldI | rnd | addI | ldF | ldVxDT =>
    cases h
    exact .inr (.of_kept rfl rfl rfl)

@[simp] theorem afterExec_fault (i : Instr) (s t : State) : (afterExec i s t).fault = t.fault := by
  unfold afterExec
  split <;> rfl

/-- An instruction whose step left the latch clear completed. -/
theorem exec_completed {i : Instr} {s t : State} (h : exec i s = .next t) (hok : t.fault = none) :
    Completed i s t := by
  obtain ⟨c, rfl⟩ | hdone := exec_raises_or_completes h
  · cases hok
  · exact hdone

/-! Steps. -/

theorem step_of_reserved {s : State} {e : DecodeError} (hf : s.fault = none) (hpc : s.fetchable = true)
    (he : decode s.fetchWord = .error e) : step s = .next (s.reportUnknown s.fetchWord).timerPhase := by
  simp [step, hf, hpc, he]

/-- A step that sets the latch raised the fault at its fetch or in its instruction, and ended there. -/
theorem step_raises {s t : State} {c : MachineFault} (hf : s.fault = none) (h : step s = .next t)
    (hc : t.fault = some c) : t = s.raise c := by
  obtain ⟨hhalted, -⟩ | ⟨-, -, rfl⟩ | ⟨-, -, -, rfl⟩ | ⟨-, -, i, u, -, hu, rfl⟩ := step_cases h
  · exact absurd hf hhalted
  · cases hc
    rfl
  · exact nomatch hf.symm.trans hc
  · rw [afterExec_fault] at hc
    obtain ⟨d, rfl⟩ | hdone := exec_raises_or_completes hu
    · cases hc
      exact afterExec_of_fault nofun
    · exact nomatch hf.symm.trans (hdone.fault.symm.trans hc)

/-- A step that completes `i`, a waiting FX0A apart, is `i` and then the timer phase. -/
theorem step_completed {s t : State} {i : Instr} (hf : s.fault = none) (hpc : s.fetchable = true)
    (hi : decode s.fetchWord = .ok i) (h : step s = .next t) (hok : t.fault = none) (hgo : ¬ awaitsKey i s = true) :
    ∃ u, Completed i s u ∧ t = u.timerPhase := by
  obtain ⟨hhalted, -⟩ | ⟨-, hout, -⟩ | ⟨-, -, ⟨e, he⟩, -⟩ | ⟨-, -, j, u, hj, hu, rfl⟩ := step_cases h
  · exact absurd hf hhalted
  · exact nomatch hpc.symm.trans hout
  · exact nomatch hi.symm.trans he
  · obtain rfl : i = j := Except.ok.inj (hi.symm.trans hj)
    rw [afterExec_fault] at hok
    exact ⟨u, exec_completed hu hok, afterExec_of_completed hok hgo⟩

/-- Settles O10: the report and then the timer phase, whose Beep follows the diagnostic. -/
theorem reservedWordIsReportedAndPassedOver : Obligations.ReservedWordIsReportedAndPassedOver := by
  intro s e hf hpc he
  refine ⟨_, step_of_reserved hf (State.fetchable_iff.mpr hpc) he, rfl, ?_, tick_toNat _, tick_toNat _,
    ((KeepsAllBut.refl _ s).emit (.inr (.inr rfl)) _).advance.timerPhase (.inl rfl) (.inr (.inl rfl))
      (.inr (.inr rfl))⟩
  rw [State.timerPhase_trace, State.reportUnknown_soundTimer, State.reportUnknown_trace]
  split
  · exact List.append_assoc _ _ _
  · rfl

/-- Settles O13: the instruction leaves the timer as it was, and the timer phase ticks it once. -/
theorem stepTicksEachTimerOnce : Obligations.StepTicksEachTimerOnce := by
  intro s t i hf hpc hi h hok hkey
  have hgo : ¬ awaitsKey i s = true := fun hwait =>
    have ⟨hk, hnone⟩ := awaitsKey_iff.mp hwait
    hkey hk hnone
  obtain ⟨u, hdone, rfl⟩ := step_completed hf (State.fetchable_iff.mpr hpc) hi h hok hgo
  refine ⟨fun hne => ?_, fun hne => ?_⟩
  · rw [State.timerPhase_delayTimer, tick_toNat, hdone.delayTimer hne]
  · rw [State.timerPhase_soundTimer, tick_toNat, hdone.soundTimer hne]

/-- Settles O18: raising a fault writes the latch only, and no timer phase follows it. -/
theorem faultingStepWritesOnlyTheLatch : Obligations.FaultingStepWritesOnlyTheLatch :=
  fun _ _ _ hf h hc => step_raises hf h hc

/-- Settles O8: the halted gate comes first. -/
theorem haltedStepChangesNothing : Obligations.HaltedStepChangesNothing :=
  fun s c hc => if_pos (show s.fault.isSome = true by rw [hc]; rfl)

/-- Settles O12, by the value of a tick and by what the phase writes. -/
theorem timerPhaseTicksAndBeeps : Obligations.TimerPhaseTicksAndBeeps := fun s =>
  ⟨tick_toNat _, tick_toNat _, s.timerPhase_trace_eq_append, rfl,
    (KeepsAllBut.refl _ s).timerPhase (.inl rfl) (.inr (.inl rfl)) (.inr (.inr rfl))⟩

/-- Settles O28: each of the two moves is one write. -/
theorem keyUpdateAndDrawAckTouchOnlyTheirPart : Obligations.KeyUpdateAndDrawAckTouchOnlyTheirPart := fun s k =>
  ⟨rfl, rfl, (KeepsAllBut.refl (· = .keypad) s).setKeys rfl k, rfl, rfl,
    (KeepsAllBut.refl (· = .drawFlag) s).drawAck rfl⟩

end Sys2Proof.Machine
end

section
/-! SUPPORT. The statements of the family of spec/70_reset_and_hazards.md: the parked core, and the two answers of
`loadProgram`. -/

namespace Sys2Proof.Machine

/-! The parked core (R195, D23): its jump gives the state back, so its step is the timer phase alone. -/

section
variable {s : State}

theorem exec_jp_of_self {nnn : Imm12} (h : zextNNN nnn = s.pc) : exec (.jp nnn) s = .next s := by
  show Host.Outcome.next (s.jumpTo (zextNNN nnn)) = .next s
  rw [h]
  rfl

theorem step_of_parked (h : s.parked) : step s = .next s.timerPhase := by
  obtain ⟨hf, hpc, nnn, hi, hself⟩ := h
  exact step_of_exec_completed hf (State.fetchable_iff.mpr hpc) hi (exec_jp_of_self hself) hf Bool.false_ne_true

/-- Parking reads the latch, PC and memory, none of which the timer phase writes. -/
theorem State.parked.timerPhase (h : s.parked) : s.timerPhase.parked := h

end

/-- Settles O23: the step of a parked core is the timer phase, which keeps it parked. -/
theorem parkedCoreStaysParked : Obligations.ParkedCoreStaysParked := fun s h =>
  ⟨_, step_of_parked h, h.timerPhase, rfl,
    (KeepsAllBut.refl _ s).timerPhase (.inl rfl) (.inr (.inl rfl)) (.inr (.inr rfl))⟩

/-! `loadProgram`, an equation for each answer (R65, R191). -/

section
variable {bytes : List Byte} (s : State)

theorem State.loadProgram_of_fits (h : bytes.length ≤ 3584) :
    s.loadProgram bytes = (s.writeBytes 0x200 bytes, .ok) :=
  if_neg (Nat.not_lt.mpr h)

theorem State.loadProgram_of_too_large (h : 3584 < bytes.length) : s.loadProgram bytes = (s, .romTooLarge) :=
  if_pos h

end

/-- Settles O27: an image that fits is one store of its bytes from 0x200 up. -/
theorem loadProgramCopiesVerbatim : Obligations.LoadProgramCopiesVerbatim := by
  refine fun s bytes => ⟨fun hfits => ?_, s.loadProgram_of_too_large⟩
  rw [s.loadProgram_of_fits hfits]
  refine ⟨rfl, s.writeBytes_pc _ _, fun i hi => ?_,
    (KeepsAllBut.refl _ s).writeBytes fun a hlo hhi => ⟨a, rfl, hlo, hhi⟩⟩
  exact (s.readByte_writeBytes_add 0x200 hi).trans (List.getElem_eq_getD 0).symm

end Sys2Proof.Machine
end

section
/-! SUPPORT. The model's own stop: with SP above 16 neither CALL nor RET has a stack slot, the one range of SP the
statements of spec/40_control_flow.md leave out (D16, U14). -/

namespace Sys2Proof.Machine

section
variable {s : State} (h : 16 < s.sp.toNat)
include h

theorem State.push_of_above (w : Word) : s.push w = none := by
  obtain ⟨hlt, -⟩ | ⟨-, hnone⟩ := s.push_cases w
  · omega
  · exact hnone

/-- SP above 16 leaves the slot below it at 16 or above, past the last one. -/
theorem State.pop_of_above : s.pop = none := by
  obtain ⟨hlt, -⟩ | ⟨-, hnone⟩ := s.pop_cases
  · bv_omega
  · exact hnone

theorem exec_call_of_above (nnn : Imm12) : exec (.call nnn) s = .fault .stackSlotMissing := by
  have hnotFull : s.sp ≠ 16 := by bv_omega
  simp only [exec, execCall, if_neg hnotFull, State.push_of_above h]

theorem exec_ret_of_above : exec .ret s = .fault .stackSlotMissing := by
  have hnotEmpty : s.sp ≠ 0 := by bv_omega
  simp only [exec, execRet, if_neg hnotEmpty, State.pop_of_above h]

end

/-- Settles O34: the push of a CALL and the pop of a RET find no slot, and neither fault of R161 is due. -/
theorem callAndRetStopWithoutASlot : Obligations.CallAndRetStopWithoutASlot :=
  fun nnn _ h => ⟨exec_call_of_above h nnn, exec_ret_of_above h⟩

end Sys2Proof.Machine
end
